-- ==== Sys2Proof/Word.lean ====
section
/-! DEFINITION. The widths of the block (spec/00_scope.md R4): the 32-bit working word, and the
16-bit, 8-bit and 4-bit quantities. Arithmetic on them is `BitVec` arithmetic, which wraps
(R9); the named primitives of R10 to R15 stand in Machine/Operands.lean. -/

namespace Sys2Proof

/-- The 32-bit working width `XLEN`, also the width of addresses, seed and digest (R4). -/
abbrev Word := BitVec 32

/-- A port number, `SP_W = DP_W = 16` (R4). -/
abbrev Half := BitVec 16

/-- The protocol field and one byte of the key, `PR_W = 8` (R4, R40). -/
abbrev Byte := BitVec 8

/-- A micro-address `UADDR`, four bits (R63). -/
abbrev MicroAddr := BitVec 4

/-- A request word `REQ`, 137 bits (R60). -/
abbrev ReqWord := BitVec 137

end Sys2Proof
end

