-- ==== Sys2Proof/Config.lean ====
section
/-! DEFINITION. What the implementation fixes and what no source fixes. `Params` is the ONE record
that carries the numeric literals of spec/00_scope.md R6 and R7 and the open parameters (a) and (b)
of R8 (93_implementation_defined.md U9, U10, U11); its value for this hardware is `hardware` in
Machine/Constants.lean. The opaque constants below have no body: nothing can be proved of their
values. -/

namespace Sys2Proof

/-- The constants of both variants, as fields, so that a correction touches one place (U9) and a
claim can be stated for every value of an open parameter (R8). -/
structure Params where
  /-- `C1`, first block multiply (R6, R91). -/
  c1 : Word
  /-- `R1A`, rotate between the block multiplies (R6, R91). -/
  r1a : Nat
  /-- `C2`, second block multiply (R6, R91). -/
  c2 : Word
  /-- `R2A`, rotate of the accumulator (R6, R92). -/
  r2a : Nat
  /-- `M5`, accumulator scale (R6, R92). -/
  m5 : Word
  /-- `NA`, accumulator additive constant (R6, R92). -/
  na : Word
  /-- `F1`, first finalization multiply (R6, R93). -/
  f1 : Word
  /-- `F2`, second finalization multiply (R6, R93). -/
  f2 : Word
  /-- `S1`, first finalization shift (R6, R93). -/
  s1 : Nat
  /-- `S2`, second finalization shift (R6, R93). -/
  s2 : Nat
  /-- `S3`, third finalization shift (R6, R93). -/
  s3 : Nat
  /-- `IVB`, initial-value base of Variant B (R7, R112). -/
  ivb : Word
  /-- `MIX_ROTS`, the rotate amounts of the mixing steps, in order (R7, R111). -/
  mixRots : List Nat
  /-- `P_B_FINAL_ROTS`, the rotate amounts of the finalization steps, in order (R7, R8 (b), R116). -/
  finalRots : List Nat
  /-- `P_B_MIX`, how many times B.MIX applies MIXB (R8 (a), R114). -/
  pBMix : Nat
  deriving DecidableEq, Repr

/-- A 32-bit register after a RESET event holds an unspecified value (R33, R160): the `n`-th draw,
of which nothing is known. Log entry 4. -/
opaque Config.freeWord : Nat → BitVec 32

/-- As `Config.freeWord`, for the 16-bit registers `SP` and `DP`. Log entry 4. -/
opaque Config.freeHalf : Nat → BitVec 16

/-- As `Config.freeWord`, for the 8-bit register `PR`. Log entry 4. -/
opaque Config.freeByte : Nat → BitVec 8

/-- As `Config.freeWord`, for the one-bit register `VAR`. Log entry 4. -/
opaque Config.freeBit : Nat → BitVec 1

/-- One less than `LAT_A`: R8 (c) says only that a latency is a positive integer. Log entry 14. -/
opaque Config.latALessOne : Nat

/-- One less than `LAT_B`. Log entry 14. -/
opaque Config.latBLessOne : Nat

/-- `LAT_A`, clock cycles from acceptance to response for HASHA: an open positive integer on which
no rule depends (R8 (c), R168, U8). -/
def Config.latA : Nat := Config.latALessOne + 1

/-- `LAT_B`, the same for HASHB (R8 (c), R168, U8). -/
def Config.latB : Nat := Config.latBLessOne + 1

end Sys2Proof
end

