-- ==== Sys2Proof/Machine/Constants.lean ====
section
/-! DEFINITION. The values this hardware takes for the constants and open parameters of
spec/00_scope.md R5 to R8, in one place. UNVERIFIED: the literals are transcribed from the source,
unaudited against any code (93_implementation_defined.md U9), and `pBMix` and `finalRots` are the
values 90_conflicts.md C2 and C7 choose; log entry 13. -/

namespace Sys2Proof.Machine

/-- `KEYLEN`, "the total byte length": 13 as a 32-bit word, never an operand (R5, D21). -/
def keyLen : Word := 0x0000000D#32

/-- The parameter record of this hardware (R6, R7, R8). -/
def hardware : Params where
  c1 := 0xCC9E2D51#32
  r1a := 15
  c2 := 0x1B873593#32
  r2a := 13
  m5 := 5#32
  na := 0xE6546B64#32
  f1 := 0x85EBCA6B#32
  f2 := 0xC2B2AE35#32
  s1 := 16
  s2 := 13
  s3 := 16
  ivb := 0xDEADBEEF#32
  mixRots := [4, 6, 8, 16, 19, 4]
  finalRots := [14, 11, 25, 16, 4, 14]
  pBMix := 0

end Sys2Proof.Machine
end

