-- ==== Sys2Proof/Machine/Operands.lean ====
section
/-! DEFINITION. The arithmetic primitives of spec/00_scope.md R9 to R15. All are total and wrap
modulo 2^32; none sets a flag or traps (R9). -/

namespace Sys2Proof.Machine

/-- `add32(a, b) = (a + b) mod 2^32` (R10). -/
def add32 (a b : Word) : Word := a + b

/-- `sub32(a, b) = (a - b) mod 2^32` (R10). -/
def sub32 (a b : Word) : Word := a - b

/-- `mul32(a, b)`: the low 32 bits of the product (R11). -/
def mul32 (a b : Word) : Word := a * b

/-- Bitwise exclusive-or (R12). -/
def xor32 (a b : Word) : Word := a ^^^ b

/-- `rotl32(x, n)` by the formula of R13, which the spec gives for `1 ≤ n ≤ 31`. Every amount of
this block is in that range (`hardware_wellFormed`), so its value elsewhere is never used; log
entry 9. -/
def rotl32 (x : Word) (n : Nat) : Word := (x <<< n) ||| (x >>> (32 - n))

/-- `shr32(x, n)`, a logical shift: zeros enter at the top (R14). As for `rotl32`, only amounts in
1 to 31 are used. -/
def shr32 (x : Word) (n : Nat) : Word := x >>> n

/-- `zext_32(v)`: `v` in the low bits and zeros above (R15). -/
def zext32 {n : Nat} (v : BitVec n) : Word := v.setWidth 32

end Sys2Proof.Machine
end

