-- ==== Sys2Proof/Syntax.lean ====
section
/-! DEFINITION. The syntax of the block: its sixteen instructions (spec/opcode_table.json,
30_encoding.md R62, R63), the request as the ports carry it (10_state.md R28), the two encoded
forms, and the assembler lines of 30_encoding.md R68. -/

namespace Sys2Proof

/-- The instructions: one constructor per row of the opcode table. The two request operations
carry the six operands in the order of R68; the fourteen micro-operations carry none, since every
number they use is hard-wired (R64). -/
inductive Instr where
  /-- HASHA (R90). -/
  | hasha (sa da : BitVec 32) (sp dp : BitVec 16) (proto : BitVec 8) (seed : BitVec 32)
  /-- HASHB (R110). -/
  | hashb (sa da : BitVec 32) (sp dp : BitVec 16) (proto : BitVec 8) (seed : BitVec 32)
  /-- A.INIT (R94). -/
  | aInit
  /-- A.BLK0 (R95). -/
  | aBlk0
  /-- A.BLK1 (R96). -/
  | aBlk1
  /-- A.BLK2 (R97). -/
  | aBlk2
  /-- A.TAIL (R98). -/
  | aTail
  /-- A.LEN (R99). -/
  | aLen
  /-- A.FMIX (R100). -/
  | aFmix
  /-- A.OUT (R101). -/
  | aOut
  /-- B.INIT (R112). -/
  | bInit
  /-- B.ABSORB (R113). -/
  | bAbsorb
  /-- B.MIX (R114). -/
  | bMix
  /-- B.TAIL (R115). -/
  | bTail
  /-- B.FINAL (R117). -/
  | bFinal
  /-- B.OUT (R118). -/
  | bOut
  deriving DecidableEq, Repr

/-- The seven operands of a request, as numbers on the `req_*` operand ports (R28, D35); also what
the request latch holds (R21). -/
structure Request where
  /-- `req_var`: 0 = Variant A, 1 = Variant B (R2). -/
  var : BitVec 1
  /-- `req_sa`, source address. -/
  sa : Word
  /-- `req_da`, destination address. -/
  da : Word
  /-- `req_sp`, source port. -/
  sp : Half
  /-- `req_dp`, destination port. -/
  dp : Half
  /-- `req_proto`, protocol. -/
  proto : Byte
  /-- `req_seed`, seed. -/
  seed : Word
  deriving DecidableEq, Repr

/-- An encoded instruction: the block has two formats and no other (R60, R63, R67). -/
inductive CodeWord where
  /-- A request word on the operand ports. -/
  | req (w : ReqWord)
  /-- A micro-address inside the block. -/
  | uaddr (u : MicroAddr)
  deriving DecidableEq, Repr

/-- A line of the test notation of R68. Operands are the numbers as written, of any size; whether
they fit their fields is `Line.wellFormed`. -/
inductive Line where
  /-- `HASHA source_address, destination_address, source_port, destination_port, protocol, seed`. -/
  | hasha (sa da sp dp proto seed : Nat)
  /-- `HASHB` with the same operands. -/
  | hashb (sa da sp dp proto seed : Nat)
  /-- `RESET`: one clock edge with `rst = 1`; a directive, not an operation. -/
  | reset
  deriving DecidableEq, Repr

end Sys2Proof
end

