-- ==== Sys2Proof/WellFormed.lean ====
section
/-! DEFINITION. The checks the spec gives. An `Instr` needs none: its operands are bit vectors of
the fields' widths, and every value of every field is a valid request (spec/30_encoding.md R65).
What can be ill-formed is an assembler line whose number does not fit its field (R68), a
micro-address that names nothing (R66), and a parameter record with an amount outside the range
the primitives are defined on (00_scope.md R13, R14; 93_implementation_defined.md U5). -/

namespace Sys2Proof

/-- The six operands fit 32, 32, 16, 16, 8 and 32 bits (R68). -/
def operandsFit (sa da sp dp proto seed : Nat) : Bool :=
  decide (sa < 2 ^ 32) && decide (da < 2 ^ 32) && decide (sp < 2 ^ 16) && decide (dp < 2 ^ 16) &&
    decide (proto < 2 ^ 8) && decide (seed < 2 ^ 32)

/-- A line the assembler accepts: "a number that does not fit is refused by the assembler, never
truncated" (R68). -/
def Line.wellFormed : Line → Bool
  | .hasha sa da sp dp proto seed => operandsFit sa da sp dp proto seed
  | .hashb sa da sp dp proto seed => operandsFit sa da sp dp proto seed
  | .reset => true

/-- A code word that names an instruction: every request word does (R65), and every micro-address
but 1110 and 1111 (R66). -/
def CodeWord.wellFormed : CodeWord → Bool
  | .req _ => true
  | .uaddr u => decide (u.toNat < 14)

/-- A shift or rotate amount on which R13 and R14 define the primitives. -/
def amountInRange (n : Nat) : Bool := decide (1 ≤ n) && decide (n ≤ 31)

/-- Every amount is in range, the mixing list has its six amounts, and every multiplier is odd
(R11, R13, R14, R111). -/
def Params.wellFormed (p : Params) : Bool :=
  [p.r1a, p.r2a, p.s1, p.s2, p.s3].all amountInRange &&
    (p.mixRots.all amountInRange && p.finalRots.all amountInRange) &&
    decide (p.mixRots.length = 6) &&
    [p.c1, p.c2, p.m5, p.f1, p.f2].all (fun m => m.getLsbD 0)

end Sys2Proof
end

