-- ==== Sys2Proof/Decode.lean ====
section
/-! DEFINITION. Decoding and encoding: the request word `REQ` (spec/30_encoding.md R60, R62, R64)
and the micro-address `UADDR` (R63). `decode` is total: every request word is a request (R65), and
a micro-address that names no micro-operation is rejected by name (R66). -/

namespace Sys2Proof

/-- Why a code word is no instruction. -/
inductive DecodeError where
  /-- The micro-addresses `1110` and `1111` (R66). -/
  | unreachableMicroAddress (u : MicroAddr)
  deriving DecidableEq, Repr

/-- A request word read by the slices of R60, with no transformation (R64); bit 136 alone selects
the operation (R62). -/
def decodeReq (w : ReqWord) : Instr :=
  let sa := w.extractLsb' 0 32
  let da := w.extractLsb' 32 32
  let sp := w.extractLsb' 64 16
  let dp := w.extractLsb' 80 16
  let proto := w.extractLsb' 96 8
  let seed := w.extractLsb' 104 32
  if w.getLsbD 136 then .hashb sa da sp dp proto seed else .hasha sa da sp dp proto seed

/-- The micro-operation a micro-address names, by the table of R63. -/
def decodeUaddr (u : MicroAddr) : Except DecodeError Instr :=
  match u.toNat with
  | 0 => .ok .aInit
  | 1 => .ok .aBlk0
  | 2 => .ok .aBlk1
  | 3 => .ok .aBlk2
  | 4 => .ok .aTail
  | 5 => .ok .aLen
  | 6 => .ok .aFmix
  | 7 => .ok .aOut
  | 8 => .ok .bInit
  | 9 => .ok .bAbsorb
  | 10 => .ok .bMix
  | 11 => .ok .bTail
  | 12 => .ok .bFinal
  | 13 => .ok .bOut
  | _ => .error (.unreachableMicroAddress u)

/-- The instruction a code word stands for, or why there is none. -/
def decode : CodeWord → Except DecodeError Instr
  | .req w => .ok (decodeReq w)
  | .uaddr u => decodeUaddr u

/-- The request word of seven operands, most significant field first (R60). -/
def encodeReq (var : BitVec 1) (sa da : Word) (sp dp : Half) (proto : Byte) (seed : Word) :
    ReqWord :=
  var ++ seed ++ proto ++ dp ++ sp ++ da ++ sa

/-- The word on the operand ports that carry a request (R28, R60). -/
def Request.word (r : Request) : ReqWord :=
  encodeReq r.var r.sa r.da r.sp r.dp r.proto r.seed

/-- The code word of an instruction (R60, R62, R63). -/
def encode : Instr → CodeWord
  | .hasha sa da sp dp proto seed => .req (encodeReq 0#1 sa da sp dp proto seed)
  | .hashb sa da sp dp proto seed => .req (encodeReq 1#1 sa da sp dp proto seed)
  | .aInit => .uaddr 0b0000#4
  | .aBlk0 => .uaddr 0b0001#4
  | .aBlk1 => .uaddr 0b0010#4
  | .aBlk2 => .uaddr 0b0011#4
  | .aTail => .uaddr 0b0100#4
  | .aLen => .uaddr 0b0101#4
  | .aFmix => .uaddr 0b0110#4
  | .aOut => .uaddr 0b0111#4
  | .bInit => .uaddr 0b1000#4
  | .bAbsorb => .uaddr 0b1001#4
  | .bMix => .uaddr 0b1010#4
  | .bTail => .uaddr 0b1011#4
  | .bFinal => .uaddr 0b1100#4
  | .bOut => .uaddr 0b1101#4

/-- The code word whose bits a row of the opcode table numbers: up to 64 bits it is a micro-address
(the table gives it four bits, one byte), above that a request word (137 bits, eighteen bytes).
Bits above the format's own must be 0. Log entry 15. -/
def tableWord (nbits w : Nat) : Option CodeWord :=
  if nbits ≤ 64 then
    if w < 2 ^ 4 then some (.uaddr (BitVec.ofNat 4 w)) else none
  else
    if w < 2 ^ 137 then some (.req (BitVec.ofNat 137 w)) else none

/-- The instruction the decoder reads from the bits `w` of a row of the opcode table. -/
def decodeTableWord (nbits w : Nat) : Option Instr :=
  match tableWord nbits w with
  | none => none
  | some cw =>
    match decode cw with
    | .ok i => some i
    | .error _ => none

/-- One row of spec/opcode_table.json: its mnemonic, its `mask` and its `match`. -/
structure Row where
  mnemonic : String
  mask : Nat
  pattern : Nat
  deriving DecidableEq, Repr

/-- The row of the opcode table that an instruction belongs to (R62, R63). -/
def Instr.row : Instr → Row
  | .hasha .. => ⟨"HASHA", 2 ^ 136, 0⟩
  | .hashb .. => ⟨"HASHB", 2 ^ 136, 2 ^ 136⟩
  | .aInit => ⟨"A.INIT", 0xF, 0x0⟩
  | .aBlk0 => ⟨"A.BLK0", 0xF, 0x1⟩
  | .aBlk1 => ⟨"A.BLK1", 0xF, 0x2⟩
  | .aBlk2 => ⟨"A.BLK2", 0xF, 0x3⟩
  | .aTail => ⟨"A.TAIL", 0xF, 0x4⟩
  | .aLen => ⟨"A.LEN", 0xF, 0x5⟩
  | .aFmix => ⟨"A.FMIX", 0xF, 0x6⟩
  | .aOut => ⟨"A.OUT", 0xF, 0x7⟩
  | .bInit => ⟨"B.INIT", 0xF, 0x8⟩
  | .bAbsorb => ⟨"B.ABSORB", 0xF, 0x9⟩
  | .bMix => ⟨"B.MIX", 0xF, 0xA⟩
  | .bTail => ⟨"B.TAIL", 0xF, 0xB⟩
  | .bFinal => ⟨"B.FINAL", 0xF, 0xC⟩
  | .bOut => ⟨"B.OUT", 0xF, 0xD⟩

/-- The bits of a code word, as the number the opcode table's `mask` and `match` are read on. -/
def CodeWord.bits : CodeWord → Nat
  | .req w => w.toNat
  | .uaddr u => u.toNat

end Sys2Proof
end

