-- ==== Sys2Proof/Machine/State.lean ====
section
/-! DEFINITION. The state of the block: the fourteen elements of spec/10_state.md R20, and two
fields of the model's own (the requester's inputs still to come, log entry 1; the counter of free
values, log entry 5). The key buffer `K`, the micro-address and the outputs are views of these and
are computed (R22, R29, R63). -/

namespace Sys2Proof.Machine

/-- The handshake phase (R27). Its binary encoding is not architectural. -/
inductive Phase where
  /-- No operation in progress; a request can be accepted. -/
  | idle
  /-- An operation has been accepted and its micro-sequence has not finished. -/
  | run
  /-- The micro-sequence has finished and `DIGEST` is offered. -/
  | resp
  deriving DecidableEq, Repr

/-- What the requester drives onto the input ports at one rising edge of `clk` (R28), with one bit
of the model's own: `rest` says that the core, if it is in RUN, takes no STEP at this edge (R130,
R141: "the block may take more than one edge per micro-operation"; log entry 2). -/
structure Edge where
  /-- `rst`. -/
  rst : Bool
  /-- `req_valid`. -/
  reqValid : Bool
  /-- The seven operand ports `req_var`, `req_sa`, `req_da`, `req_sp`, `req_dp`, `req_proto`,
  `req_seed`. -/
  req : Request
  /-- `rsp_ready`. -/
  rspReady : Bool
  /-- The core rests at this edge if it is in RUN. Looked at in RUN only. -/
  rest : Bool
  deriving DecidableEq, Repr

/-- An edge at which every input port is 0 and the core does not rest: what the ports carry when
the requester's script has ended. DESIGN CHOICE, log entry 1. -/
def Edge.quiet : Edge :=
  { rst := false, reqValid := false,
    req := { var := 0, sa := 0, da := 0, sp := 0, dp := 0, proto := 0, seed := 0 },
    rspReady := false, rest := false }

/-- The state of the machine. -/
structure State where
  /-- `VAR`, variant of the operation in progress (R21). -/
  var : BitVec 1
  /-- `SA`, source address (R21). -/
  sa : Word
  /-- `DA`, destination address (R21). -/
  da : Word
  /-- `SP`, source port (R21). -/
  sp : Half
  /-- `DP`, destination port (R21). -/
  dp : Half
  /-- `PR`, protocol (R21). -/
  pr : Byte
  /-- `SEED`, seed (R21). -/
  seed : Word
  /-- `H`, the accumulator of Variant A (R23). -/
  h : Word
  /-- `A`, first word of Variant B (R24). -/
  a : Word
  /-- `B`, second word of Variant B (R24). -/
  b : Word
  /-- `C`, third word of Variant B (R24). -/
  c : Word
  /-- `DIGEST`, the result of the last completed operation (R25). -/
  digest : Word
  /-- `USTEP`, the micro-sequencer step, the block's program counter (R26). -/
  ustep : BitVec 3
  /-- `PHASE`, the handshake phase (R27). -/
  phase : Phase
  /-- The MODEL's own field: the input samples of the rising edges still to come, the next one
  first (log entry 1). -/
  edges : List Edge
  /-- The MODEL's own field: how many free values have been drawn (log entry 5). -/
  draws : Nat
  deriving DecidableEq, Repr

/-- Reasons for which the hardware itself stops: none. "The complete list of exception causes is
therefore empty" (spec/60_exceptions.md R145), so there is no constructor. Safe. Log entry 18. -/
inductive Fault where
  deriving DecidableEq, Repr

/-- Reasons for which the model gives no meaning. R145 names the three uses the spec allows; they
"exist to catch a wrong model, not to describe the hardware". -/
inductive Refusal where
  /-- An instruction that has no meaning yet; raised by `exec`'s refused arms, of which there are
  none. Safe. -/
  | notModelled (mnemonic : String)
  /-- Raised by the sequencer in RUN when `UADDR` is `1110` or `1111` (R66). Safe. -/
  | unreachableMicroAddress (u : MicroAddr)
  /-- Raised by a micro-operation whose key read is not one of the four pairs on which `MemRead` is
  defined (R43, R46). Safe; no micro-operation makes such a read. -/
  | undefinedMemRead (addr n : Nat)
  /-- Raised by a read of the port `rsp_digest` while `PHASE` is not RESP (R29, U2). Safe; no step
  reads the port. -/
  | digestNotOffered
  deriving DecidableEq, Repr

/-- The state right after RESET (R33, R160): `PHASE = IDLE`, `USTEP = 0`. The spec leaves every
other element unspecified; the value 0 is a DESIGN CHOICE (log entry 3), as are the empty input
script (log entry 1) and the counter's start (log entry 5). -/
def State.reset : State :=
  { var := 0, sa := 0, da := 0, sp := 0, dp := 0, pr := 0, seed := 0,
    h := 0, a := 0, b := 0, c := 0, digest := 0,
    ustep := 0, phase := .idle, edges := [], draws := 0 }

end Sys2Proof.Machine
end

