-- ==== Sys2Proof/Machine/Ops.lean ====
section
/-! DEFINITION. The named operations over the state: the key buffer and its reads
(spec/20_memory.md, 40_key_serialization.md), the events ACCEPT, TAKE and RESET
(43_sequencer_and_handshake.md, 70_reset_and_hazards.md), and the updates a micro-operation makes.
The block has no exception, trap or return from one (60_exceptions.md R145, R148, R149); what can
divert it is RESET alone, `State.resetEvent`. -/

namespace Sys2Proof.Machine

/-! ### The key buffer -/

/-- The key buffer as a memory: (address, byte) pairs, addresses rising (R40). -/
abbrev Memory := List Host.Cell

/-- SER: the thirteen bytes of a FlowKey, each field least significant byte first (R41, R42, R80). -/
def ser (sa da : Word) (sp dp : Half) (pr : Byte) : Memory :=
  [(0, sa.extractLsb' 0 8), (1, sa.extractLsb' 8 8), (2, sa.extractLsb' 16 8),
   (3, sa.extractLsb' 24 8),
   (4, da.extractLsb' 0 8), (5, da.extractLsb' 8 8), (6, da.extractLsb' 16 8),
   (7, da.extractLsb' 24 8),
   (8, sp.extractLsb' 0 8), (9, sp.extractLsb' 8 8),
   (10, dp.extractLsb' 0 8), (11, dp.extractLsb' 8 8),
   (12, pr)]

/-- The key buffer `K` of a state: at every moment the serialization of the request latch, not a
store of its own (R22). -/
def State.mem (s : State) : Memory := ser s.sa s.da s.sp s.dp s.pr

/-- The canonical form: the addresses are exactly 0 to 12, in order. An address that is not listed
does not exist and holds no byte (R40, R42; log entry 6). -/
def Memory.wf (m : Memory) : Bool := decide (m.map Prod.fst = List.range 13)

/-- The byte at an address, or nothing where no address exists (R40, R42). -/
def Memory.byte (m : Memory) (a : Nat) : Option Byte := m.lookup a

/-- Four bytes read little-endian, the byte at the lowest address least significant (R41, R43). -/
def Memory.word (m : Memory) (a : Nat) : Option Word :=
  match m.byte a, m.byte (a + 1), m.byte (a + 2), m.byte (a + 3) with
  | some b0, some b1, some b2, some b3 => some (b3 ++ b2 ++ b1 ++ b0 : BitVec (8 + 8 + 8 + 8))
  | _, _, _, _ => none

/-- The (address, width) pairs on which `MemRead` is defined (R43). -/
def memReadDefined (addr n : Nat) : Bool :=
  decide (n = 4) && decide (addr ∈ [0, 4, 8]) || decide (n = 1) && decide (addr = 12)

/-- `MemRead(addr, n)`, partial: defined on the four pairs of R43 and on nothing else (R46, U6). -/
def memRead (m : Memory) (addr n : Nat) : Option (BitVec (8 * n)) :=
  if memReadDefined addr n then
    match n with
    | 4 => m.word addr
    | 1 => m.byte addr
    | _ => none
  else none

/-- A micro-operation's read of one key block: `f` with `MemRead(addr, 4)`. -/
def State.withBlock (s : State) (addr : Nat) (f : Word → Host.Outcome State Fault Refusal) :
    Host.Outcome State Fault Refusal :=
  match memRead s.mem addr 4 with
  | some k => f k
  | none => .refused (.undefinedMemRead addr 4)

/-- A micro-operation's read of the tail: `f` with `zext_32(MemRead(12, 1))`, never sign-extended
(R43, R64). -/
def State.withTail (s : State) (f : Word → Host.Outcome State Fault Refusal) :
    Host.Outcome State Fault Refusal :=
  match memRead s.mem 12 1 with
  | some t => f (zext32 t)
  | none => .refused (.undefinedMemRead 12 1)

/-! ### The micro-sequencer's view -/

/-- `UADDR`: `VAR` in bit 3, `USTEP` in bits 2 to 0 (R26, R63). -/
def State.uaddr (s : State) : MicroAddr := s.var ++ s.ustep

/-- The operands held in the request latch (R21). -/
def State.latched (s : State) : Request :=
  { var := s.var, sa := s.sa, da := s.da, sp := s.sp, dp := s.dp, proto := s.pr, seed := s.seed }

/-! ### What the micro-operations write -/

/-- `H <- h` and `USTEP <- u` (R94 to R100). -/
def State.withH (s : State) (h : Word) (u : BitVec 3) : State := { s with h := h, ustep := u }

/-- Three working words of Variant B (R24). -/
structure Triple where
  a : Word
  b : Word
  c : Word
  deriving DecidableEq, Repr

/-- The registers `A`, `B`, `C` (R24). -/
def State.abc (s : State) : Triple := { a := s.a, b := s.b, c := s.c }

/-- `(A, B, C) <- t` and `USTEP <- u` (R112 to R117). -/
def State.withAbc (s : State) (t : Triple) (u : BitVec 3) : State :=
  { s with a := t.a, b := t.b, c := t.c, ustep := u }

/-- The last micro-operation of either variant: `DIGEST <- d`, `USTEP <- 0`, `PHASE <- RESP`
(R101, R118). -/
def State.deliver (s : State) (d : Word) : State :=
  { s with digest := d, ustep := 0, phase := .resp }

/-! ### The events of the handshake and of reset -/

/-- ACCEPT: the request latch (and so `K`) is written whole, `USTEP <- 0`, `PHASE <- RUN`; `H`, `A`,
`B`, `C`, `DIGEST` are not written (R131, R21, R44). -/
def State.accept (s : State) (r : Request) : State :=
  { s with var := r.var, sa := r.sa, da := r.da, sp := r.sp, dp := r.dp, pr := r.proto,
           seed := r.seed, ustep := 0, phase := .run }

/-- A request offered to the block: accepted in IDLE; in RUN and RESP it "is ignored and is not
queued" (R131, R165, U12). -/
def State.offer (s : State) (r : Request) : Host.Outcome State Fault Refusal :=
  match s.phase with
  | .idle => .next (s.accept r)
  | .run => .next s
  | .resp => .next s

/-- TAKE: `PHASE <- IDLE`; "Nothing else changes" (R135). -/
def State.take (s : State) : State := { s with phase := .idle }

/-- RESET: `PHASE <- IDLE`, `USTEP <- 0`; every other element becomes unspecified (R160, R33), that
is a free value of its own (log entry 4). -/
def State.resetEvent (s : State) : State :=
  { s with
    phase := .idle
    ustep := 0
    var := Config.freeBit s.draws
    sa := Config.freeWord (s.draws + 1)
    da := Config.freeWord (s.draws + 2)
    sp := Config.freeHalf (s.draws + 3)
    dp := Config.freeHalf (s.draws + 4)
    pr := Config.freeByte (s.draws + 5)
    seed := Config.freeWord (s.draws + 6)
    h := Config.freeWord (s.draws + 7)
    a := Config.freeWord (s.draws + 8)
    b := Config.freeWord (s.draws + 9)
    c := Config.freeWord (s.draws + 10)
    digest := Config.freeWord (s.draws + 11)
    draws := s.draws + 12 }

/-! ### The clock -/

/-- The input sample of the next rising edge; when the script has ended, `Edge.quiet` (log entry 1). -/
def State.nextEdge (s : State) : Edge := s.edges.headD Edge.quiet

/-- The state with that sample consumed. -/
def State.popEdge (s : State) : State := { s with edges := s.edges.tail }

/-- The state in which `e` is the input sample of the next rising edge, in place of the one that
was. -/
def State.withEdge (s : State) (e : Edge) : State := { s with edges := e :: s.edges.tail }

end Sys2Proof.Machine
end

