-- ==== Sys2Proof/Machine/VariantA.lean ====
section
/-! DEFINITION. Variant A, the block avalanche hasher (spec/41_variant_a.md): its three stage
functions, the digest as a function of the operands, and the eight micro-operations. The micro-operations
read and write only the state their rule names; none reads `A`, `B`, `C`. -/

namespace Sys2Proof.Machine

/-! ### The stage functions -/

/-- SCR, the block scramble: multiply, rotate, multiply (R91). Sums and products commute modulo
2^32; the constants stand first so that Lean's kernel, which counts a literal second operand down,
stops at the variable. -/
def scr (p : Params) (k : Word) : Word := mul32 p.c2 (rotl32 (mul32 p.c1 k) p.r1a)

/-- ABS, absorbing a scrambled word into the accumulator: exclusive-or, rotate, scale and offset
(R92). -/
def absorb (p : Params) (h s : Word) : Word :=
  add32 p.na (mul32 p.m5 (rotl32 (xor32 h s) p.r2a))

/-- One shift-right-exclusive-or step, `h ^ shr32(h, n)` (R14, R93). -/
def xorShift (h : Word) (n : Nat) : Word := xor32 h (shr32 h n)

/-- FMIX32, the finalization mixer: five steps (R93, C1). -/
def fmix32 (p : Params) (h : Word) : Word :=
  xorShift (mul32 p.f2 (xorShift (mul32 p.f1 (xorShift h p.s1)) p.s2)) p.s3

/-! ### The digest -/

/-- HashA of R90, on the word view of the key that R82 gives (`W0 = sa`, `W1 = da`,
`W2 = (dp, sp)`, `TB = pr`): the function the micro-sequence computes. -/
def hashA (p : Params) (sa da : Word) (sp dp : Half) (pr : Byte) (seed : Word) : Word :=
  let h := absorb p seed (scr p sa)
  let h := absorb p h (scr p da)
  let h := absorb p h (scr p (dp ++ sp : BitVec (16 + 16)))
  let h := xor32 h (scr p (zext32 pr))
  let h := xor32 h keyLen
  fmix32 p h

/-! ### The micro-operations -/

/-- A.INIT: `H <- SEED` (R94). -/
def execAInit (s : State) : Host.Outcome State Fault Refusal := .next (s.withH s.seed 1)

/-- Absorbing the block at `addr`: `k <- MemRead(addr, 4)`, `H <- ABS(H, SCR(k))`, `USTEP <- u`
(R95 to R97). -/
def absorbBlock (s : State) (addr : Nat) (u : BitVec 3) : Host.Outcome State Fault Refusal :=
  s.withBlock addr fun k => .next (s.withH (absorb hardware s.h (scr hardware k)) u)

/-- A.BLK0 (R95). -/
def execABlk0 (s : State) : Host.Outcome State Fault Refusal := absorbBlock s 0 2

/-- A.BLK1 (R96). -/
def execABlk1 (s : State) : Host.Outcome State Fault Refusal := absorbBlock s 4 3

/-- A.BLK2 (R97). -/
def execABlk2 (s : State) : Host.Outcome State Fault Refusal := absorbBlock s 8 4

/-- A.TAIL: the tail byte is scrambled and exclusive-ored in, with no rotate and no
scale-and-offset after it (R98, D18). -/
def execATail (s : State) : Host.Outcome State Fault Refusal :=
  s.withTail fun k => .next (s.withH (xor32 s.h (scr hardware k)) 5)

/-- A.LEN: `H <- H ^ 13` (R99). -/
def execALen (s : State) : Host.Outcome State Fault Refusal := .next (s.withH (xor32 s.h keyLen) 6)

/-- A.FMIX: `H <- FMIX32(H)` (R100). -/
def execAFmix (s : State) : Host.Outcome State Fault Refusal :=
  .next (s.withH (fmix32 hardware s.h) 7)

/-- A.OUT: `DIGEST <- H`, `USTEP <- 0`, `PHASE <- RESP` (R101). -/
def execAOut (s : State) : Host.Outcome State Fault Refusal := .next (s.deliver s.h)

end Sys2Proof.Machine
end

