-- ==== Sys2Proof/Machine/VariantB.lean ====
section
/-! DEFINITION. Variant B, the three-word reversible mix hash (spec/42_variant_b.md): its two stage
functions over the parameters of 00_scope.md R8, the digest as a function of the operands, and the
six micro-operations. None reads or writes `H`. -/

namespace Sys2Proof.Machine

/-! ### The stage functions -/

/-- MIXSTEP on words named `(x, y, z)`: `x <- x - z`, `x <- x ^ rotl32(z, r)`, `z <- z + y`; answers
the new `x` and `z` (R111). -/
def mixStep (x y z : Word) (r : Nat) : Word × Word :=
  (xor32 (sub32 x z) (rotl32 z r), add32 z y)

/-- The mixing steps with the amounts given, the first of them step number `i` counting from 0, on
the triples (A,B,C), (B,C,A), (C,A,B) taken cyclically; each sees the results of the one before
(R111). -/
def mixSteps : List Nat → Nat → Triple → Triple
  | [], _, t => t
  | r :: rs, i, t =>
    mixSteps rs (i + 1)
      (match i % 3 with
       | 0 => let q := mixStep t.a t.b t.c r; { t with a := q.1, c := q.2 }
       | 1 => let q := mixStep t.b t.c t.a r; { t with b := q.1, a := q.2 }
       | _ => let q := mixStep t.c t.a t.b r; { t with c := q.1, b := q.2 })

/-- MIXB, the mixing function (R111). -/
def mixB (p : Params) (t : Triple) : Triple := mixSteps p.mixRots 0 t

/-- MIXB applied `n` times (R110, R114). -/
def mixTimes (p : Params) : Nat → Triple → Triple
  | 0, t => t
  | n + 1, t => mixTimes p n (mixB p t)

/-- FINSTEP on words named `(x, y)`: `x <- x ^ y`, `x <- x - rotl32(y, r)`; answers the new `x`
(R116). -/
def finStep (x y : Word) (r : Nat) : Word := sub32 (xor32 x y) (rotl32 y r)

/-- The finalization steps with the amounts given, the first of them step number `i` counting from
0, on the pairs (C,B), (A,C), (B,A) taken cyclically (R116). -/
def finalSteps : List Nat → Nat → Triple → Triple
  | [], _, t => t
  | r :: rs, i, t =>
    finalSteps rs (i + 1)
      (match i % 3 with
       | 0 => { t with c := finStep t.c t.b r }
       | 1 => { t with a := finStep t.a t.c r }
       | _ => { t with b := finStep t.b t.a r })

/-- FINALB, the finalization function: one step per element of `P_B_FINAL_ROTS` (R116). -/
def finalB (p : Params) (t : Triple) : Triple := finalSteps p.finalRots 0 t

/-- The value every word starts from, `IVB + KEYLEN + seed` modulo 2^32 (R112, D28). -/
def initialValue (p : Params) (seed : Word) : Word := add32 (add32 p.ivb keyLen) seed

/-! ### The digest -/

/-- The three words after B.INIT and B.ABSORB, on the word view of the key that R82 gives (R110). -/
def absorbedB (p : Params) (sa da : Word) (sp dp : Half) (seed : Word) : Triple :=
  let iv := initialValue p seed
  { a := add32 iv sa, b := add32 iv da, c := add32 iv (dp ++ sp : BitVec (16 + 16)) }

/-- HashB of R110: the function the micro-sequence computes. -/
def hashB (p : Params) (sa da : Word) (sp dp : Half) (pr : Byte) (seed : Word) : Word :=
  let t := mixTimes p p.pBMix (absorbedB p sa da sp dp seed)
  (finalB p { t with a := add32 t.a (zext32 pr) }).c

/-! ### The micro-operations -/

/-- B.INIT: `A`, `B`, `C` take the initial value (R112). -/
def execBInit (s : State) : Host.Outcome State Fault Refusal :=
  let iv := initialValue hardware s.seed
  .next (s.withAbc { a := iv, b := iv, c := iv } 1)

/-- B.ABSORB: the three key words are added into `A`, `B`, `C` (R113). -/
def execBAbsorb (s : State) : Host.Outcome State Fault Refusal :=
  s.withBlock 0 fun w0 => s.withBlock 4 fun w1 => s.withBlock 8 fun w2 =>
    .next (s.withAbc { a := add32 s.a w0, b := add32 s.b w1, c := add32 s.c w2 } 2)

/-- B.MIX: MIXB applied `P_B_MIX` times (R114). -/
def execBMix (s : State) : Host.Outcome State Fault Refusal :=
  .next (s.withAbc (mixTimes hardware hardware.pBMix s.abc) 3)

/-- B.TAIL: the zero-extended tail byte is added into `A` only (R115). -/
def execBTail (s : State) : Host.Outcome State Fault Refusal :=
  s.withTail fun k => .next (s.withAbc { s.abc with a := add32 s.a k } 4)

/-- B.FINAL: `(A, B, C) <- FINALB(A, B, C)` (R117). -/
def execBFinal (s : State) : Host.Outcome State Fault Refusal :=
  .next (s.withAbc (finalB hardware s.abc) 5)

/-- B.OUT: `DIGEST <- C`, `USTEP <- 0`, `PHASE <- RESP` (R118). -/
def execBOut (s : State) : Host.Outcome State Fault Refusal := .next (s.deliver s.c)

end Sys2Proof.Machine
end

