-- ==== Sys2Proof/Machine/Requests.lean ====
section
/-! DEFINITION. The two request operations HASHA and HASHB. What a request does at the edge at
which it is presented is ACCEPT (spec/43_sequencer_and_handshake.md R131); its digest is then
computed by the micro-operations, in the order of R132, and offered on the response port. That the
digest so delivered is `hashOf` is what R90 and R110 state of the whole operation (log entry 10). -/

namespace Sys2Proof.Machine

/-- HASHA: the request is offered with `var = 0` (R62, R90, R131). -/
def execHasha (sa da : BitVec 32) (sp dp : BitVec 16) (proto : BitVec 8) (seed : BitVec 32)
    (s : State) : Host.Outcome State Fault Refusal :=
  s.offer { var := 0, sa := sa, da := da, sp := sp, dp := dp, proto := proto, seed := seed }

/-- HASHB: the request is offered with `var = 1` (R62, R110, R131). -/
def execHashb (sa da : BitVec 32) (sp dp : BitVec 16) (proto : BitVec 8) (seed : BitVec 32)
    (s : State) : Host.Outcome State Fault Refusal :=
  s.offer { var := 1, sa := sa, da := da, sp := sp, dp := dp, proto := proto, seed := seed }

/-- The digest a request is owed by this hardware, a function of its seven operands and of nothing
else (R2, R3, R90, R110). -/
def hashOf (r : Request) : Word :=
  if r.var = 0 then hashA hardware r.sa r.da r.sp r.dp r.proto r.seed
  else hashB hardware r.sa r.da r.sp r.dp r.proto r.seed

end Sys2Proof.Machine
end

