-- ==== Sys2Proof/Machine/Dispatch.lean ====
section
/-! DEFINITION. One arm per instruction, each a direct call of its meaning. -/

namespace Sys2Proof.Machine

def exec (i : Instr) (s : State) : Host.Outcome State Fault Refusal :=
  match i with
  -- the request operations (spec/30_encoding.md R62)
  | .hasha sa da sp dp proto seed => Sys2Proof.Machine.execHasha sa da sp dp proto seed s
  | .hashb sa da sp dp proto seed => Sys2Proof.Machine.execHashb sa da sp dp proto seed s
  -- the micro-operations of Variant A (R63)
  | .aInit => Sys2Proof.Machine.execAInit s
  | .aBlk0 => Sys2Proof.Machine.execABlk0 s
  | .aBlk1 => Sys2Proof.Machine.execABlk1 s
  | .aBlk2 => Sys2Proof.Machine.execABlk2 s
  | .aTail => Sys2Proof.Machine.execATail s
  | .aLen => Sys2Proof.Machine.execALen s
  | .aFmix => Sys2Proof.Machine.execAFmix s
  | .aOut => Sys2Proof.Machine.execAOut s
  -- the micro-operations of Variant B (R63)
  | .bInit => Sys2Proof.Machine.execBInit s
  | .bAbsorb => Sys2Proof.Machine.execBAbsorb s
  | .bMix => Sys2Proof.Machine.execBMix s
  | .bTail => Sys2Proof.Machine.execBTail s
  | .bFinal => Sys2Proof.Machine.execBFinal s
  | .bOut => Sys2Proof.Machine.execBOut s

end Sys2Proof.Machine
end

