-- ==== Sys2Proof/Machine/Flags.lean ====
section
/-! DEFINITION. The block has no status flags, condition codes or predicates (spec/10_state.md
R30): no operation computes one and none is modelled. Its only status indications are the three
outputs of the handshake, which are functions of the state alone (R29). -/

namespace Sys2Proof.Machine

/-- Output `req_ready`: 1 exactly when `PHASE = IDLE` (R29). -/
def State.reqReady (s : State) : Bool := decide (s.phase = .idle)

/-- Output `rsp_valid`: 1 exactly when `PHASE = RESP` (R29). -/
def State.rspValid (s : State) : Bool := decide (s.phase = .resp)

/-- Output `rsp_digest`: `DIGEST` while `PHASE = RESP`; at any other time it has no value and a
read is refused (R29, U2; log entry 7). -/
def State.rspDigest (s : State) : Except Refusal Word :=
  match s.phase with
  | .resp => .ok s.digest
  | _ => .error .digestNotOffered

/-- All the environment can see of the block at one moment (R28, R29, R137). -/
structure Outputs where
  reqReady : Bool
  rspValid : Bool
  /-- The digest offered, or nothing while `rsp_digest` has no value. -/
  rspDigest : Option Word
  deriving DecidableEq, Repr

/-- The output ports of a state. -/
def State.outputs (s : State) : Outputs :=
  { reqReady := s.reqReady, rspValid := s.rspValid, rspDigest := s.rspDigest.toOption }

end Sys2Proof.Machine
end

