-- ==== Sys2Proof/Machine/Sequencer.lean ====
section
/-! DEFINITION. What one rising edge does: the table of spec/43_sequencer_and_handshake.md R130,
with the precedence of 60_exceptions.md R147. -/

namespace Sys2Proof.Machine

/-- The refusal under which a code word that is no instruction stops the machine. -/
def DecodeError.refusal : DecodeError → Refusal
  | .unreachableMicroAddress u => .unreachableMicroAddress u

/-- The instruction of a code word is decoded and run; a code word that names nothing is refused
(R66). -/
def runCode (cw : CodeWord) (s : State) : Host.Outcome State Fault Refusal :=
  match decode cw with
  | .ok i => exec i s
  | .error e => .refused (DecodeError.refusal e)

/-- One rising edge with the inputs `e`: RESET first; otherwise the event of the phase, and the
inputs that belong to another phase are ignored (R130, R147). In RUN the block takes one STEP, or
none if it rests (R132, R141; log entry 2). -/
def clockEdge (e : Edge) (s : State) : Host.Outcome State Fault Refusal :=
  if e.rst then .next s.resetEvent
  else
    match s.phase with
    | .idle => if e.reqValid then runCode (.req e.req.word) s else .next s
    | .run => if e.rest then .next s else runCode (.uaddr s.uaddr) s
    | .resp => if e.rspReady then .next s.take else .next s

/-- An edge at which the requester offers a request (R131). -/
def Edge.offering (r : Request) : Edge := { Edge.quiet with reqValid := true, req := r }

/-- An edge at which the requester takes the response (R135). -/
def Edge.taking : Edge := { Edge.quiet with rspReady := true }

/-- An edge with `rst = 1` (R160). -/
def Edge.resetting : Edge := { Edge.quiet with rst := true }

/-- The operands an instruction's request carries; a micro-operation carries none (R62, R69). -/
def requestOf : Instr → Option Request
  | .hasha sa da sp dp proto seed => some ⟨0, sa, da, sp, dp, proto, seed⟩
  | .hashb sa da sp dp proto seed => some ⟨1, sa, da, sp, dp, proto, seed⟩
  | _ => none

/-- The state in which the next edge presents a code word where the block takes it from. A request
word: the block in IDLE and the word on the ports with `req_valid = 1`. A micro-address: the block
in RUN with `VAR` and `USTEP` forming it, and inputs that do not disturb it. Log entry 16. -/
def State.present (s : State) : CodeWord → State
  | .req w =>
    match requestOf (decodeReq w) with
    | some r => { s.withEdge (Edge.offering r) with phase := .idle, ustep := 0 }
    | none => s
  | .uaddr u =>
    { s.withEdge Edge.quiet with
      phase := .run, var := u.extractLsb' 3 1, ustep := u.extractLsb' 0 3 }

end Sys2Proof.Machine
end

