-- ==== Sys2Proof/Machine/Step.lean ====
section
/-! DEFINITION. One step of the machine is one rising edge of `clk` (spec/10_state.md R28): the next
input sample is consumed and the edge is taken. -/

namespace Sys2Proof.Machine

/-- One step. -/
def step (s : State) : Host.Outcome State Fault Refusal := clockEdge s.nextEdge s.popEdge

/-- `s` with the instruction of an opcode-table row placed where the next step takes it from; `s`
itself where the bits are no code word of either format. Log entry 16. -/
def State.withFetchWord (s : State) (nbits w : Nat) : State :=
  match tableWord nbits w with
  | some cw => s.present cw
  | none => s

end Sys2Proof.Machine
end

