-- ==== Sys2Proof/Machine/Assembler.lean ====
section
/-! DEFINITION. The notation of spec/30_encoding.md R68, by which a requester's program is written
down: the text of a line, the request it stands for, and the input samples of its whole
transaction. It is the test bench's, not the block's (92_eei_decisions.md D31). -/

namespace Sys2Proof.Machine

/-! ### The text of a line -/

/-- The value of a decimal digit. -/
def decimalDigit (c : Char) : Option Nat :=
  if 48 ≤ c.toNat ∧ c.toNat ≤ 57 then some (c.toNat - 48) else none

/-- The value of a hexadecimal digit, either case. -/
def hexDigit (c : Char) : Option Nat :=
  if 48 ≤ c.toNat ∧ c.toNat ≤ 57 then some (c.toNat - 48)
  else if 65 ≤ c.toNat ∧ c.toNat ≤ 70 then some (c.toNat - 55)
  else if 97 ≤ c.toNat ∧ c.toNat ≤ 102 then some (c.toNat - 87)
  else none

/-- The number that digits write in a base, after `acc`. -/
def digitsFrom (base : Nat) (digit : Char → Option Nat) : List Char → Nat → Option Nat
  | [], acc => some acc
  | c :: cs, acc =>
    match digit c with
    | some d => digitsFrom base digit cs (acc * base + d)
    | none => none

/-- An operand: an unsigned number, decimal or `0x` hexadecimal (R68). -/
def parseNumber : List Char → Option Nat
  | [] => none
  | ['0', 'x'] => none
  | '0' :: 'x' :: cs => digitsFrom 16 hexDigit cs 0
  | cs => digitsFrom 10 decimalDigit cs 0

/-- A text without the spaces at its start. -/
def dropSpaces : List Char → List Char
  | [] => []
  | c :: cs => if c = ' ' then dropSpaces cs else c :: cs

/-- A text without the spaces at its start and its end. -/
def trim (cs : List Char) : List Char := (dropSpaces (dropSpaces cs).reverse).reverse

/-- A text cut at every comma. -/
def splitCommas : List Char → List (List Char)
  | [] => [[]]
  | c :: cs =>
    match splitCommas cs with
    | [] => [[c]]
    | w :: ws => if c = ',' then [] :: w :: ws else (c :: w) :: ws

/-- A text before the arrow `->` that may introduce the digest obtained, and what follows it. -/
def splitArrow : List Char → List Char × Option (List Char)
  | [] => ([], none)
  | '-' :: '>' :: cs => ([], some cs)
  | c :: cs => (c :: (splitArrow cs).1, (splitArrow cs).2)

/-- Every element of a list of optional numbers, if none is missing. -/
def allSome : List (Option Nat) → Option (List Nat)
  | [] => some []
  | none :: _ => none
  | some n :: ns =>
    match allSome ns with
    | some l => some (n :: l)
    | none => none

/-- The six operands of a request line, separated by commas. -/
def parseOperands (cs : List Char) : Option (List Nat) :=
  allSome ((splitCommas cs).map fun w => parseNumber (trim w))

/-- A line as written, with the digest written after it if there is one (R68). A text of any other
form is no line. -/
def parseLine (text : List Char) : Option (Line × Option Nat) :=
  let (body, arrow) := splitArrow (trim text)
  let expected : Option (Option Nat) :=
    match arrow with
    | none => some none
    | some cs => (parseNumber (trim cs)).map some
  match expected with
  | none => none
  | some d =>
    match trim body with
    | ['R', 'E', 'S', 'E', 'T'] => if d.isNone then some (.reset, none) else none
    | 'H' :: 'A' :: 'S' :: 'H' :: 'A' :: ' ' :: cs =>
      match parseOperands cs with
      | some [sa, da, sp, dp, proto, seed] => some (.hasha sa da sp dp proto seed, d)
      | _ => none
    | 'H' :: 'A' :: 'S' :: 'H' :: 'B' :: ' ' :: cs =>
      match parseOperands cs with
      | some [sa, da, sp, dp, proto, seed] => some (.hashb sa da sp dp proto seed, d)
      | _ => none
    | _ => none

/-! ### What a line stands for -/

/-- The request of six numbers, refused and never truncated where one does not fit (R68). -/
def requestOfOperands (var : BitVec 1) (sa da sp dp proto seed : Nat) : Option Request :=
  if operandsFit sa da sp dp proto seed then
    some ⟨var, BitVec.ofNat 32 sa, BitVec.ofNat 32 da, BitVec.ofNat 16 sp, BitVec.ofNat 16 dp,
      BitVec.ofNat 8 proto, BitVec.ofNat 32 seed⟩
  else none

/-- The whole transaction of a request, for a requester that knows the block to take one STEP at
each edge: offer, wait through the micro-sequence, take (R68, R139). Log entry 17. -/
def transaction (r : Request) : List Edge :=
  Edge.offering r :: List.replicate (if r.var = 0 then 8 else 6) Edge.quiet ++ [Edge.taking]

/-- The input samples of a list of requests issued one after another (R139). -/
def transactions (rs : List Request) : List Edge := rs.flatMap transaction

/-- The request a line stands for: nothing for RESET, which is no request, nor for a line with a
number that does not fit. -/
def requestOfLine : Line → Option Request
  | .hasha sa da sp dp proto seed => requestOfOperands 0 sa da sp dp proto seed
  | .hashb sa da sp dp proto seed => requestOfOperands 1 sa da sp dp proto seed
  | .reset => none

/-- The input samples a line stands for, or nothing where the assembler refuses it. -/
def assembleLine (l : Line) : Option (List Edge) :=
  match l with
  | .reset => some [Edge.resetting]
  | .hasha .. => (requestOfLine l).map transaction
  | .hashb .. => (requestOfLine l).map transaction

/-- The input samples of a program, refused whole if a line of it is refused. -/
def assemble : List Line → Option (List Edge)
  | [] => some []
  | l :: ls =>
    match assembleLine l, assemble ls with
    | some es, some rest => some (es ++ rest)
    | _, _ => none

end Sys2Proof.Machine
end

