-- ==== Sys2Proof/Machine/Fused.lean ====
section
/-! DEFINITION. The block with its stages fused (spec/43_sequencer_and_handshake.md R137): a machine
that holds no working register, in which the digest appears in one event as a function of the
operands. R137 says it cannot be told from the step-by-step one at the ports; `State.fused` maps
the one onto the other. -/

namespace Sys2Proof.Machine

/-- What the fused block holds: in RUN only the request and how many STEP events of it are still to
come (its latency, a number that no rule fixes), in RESP only the digest. -/
inductive FusedState where
  | idle
  | busy (r : Request) (left : Nat)
  | offering (digest : Word)
  deriving DecidableEq, Repr

/-- The number of STEP events of an operation (R132): eight for HASHA, six for HASHB. -/
def stepsOf (var : BitVec 1) : Nat := if var = 0 then 8 else 6

/-- One rising edge of the fused block (R130): the digest of the request is computed whole at the
last STEP event of RUN. -/
def fusedEdge (e : Edge) (f : FusedState) : FusedState :=
  if e.rst then .idle
  else
    match f with
    | .idle => if e.reqValid then .busy e.req (stepsOf e.req.var) else .idle
    | .busy r left =>
      if e.rest then .busy r left
      else if left ≤ 1 then .offering (hashOf r) else .busy r (left - 1)
    | .offering d => if e.rspReady then .idle else .offering d

/-- The fused block's view of a state: the working registers are forgotten. -/
def State.fused (s : State) : FusedState :=
  match s.phase with
  | .idle => .idle
  | .run => .busy s.latched (stepsOf s.var - s.ustep.toNat)
  | .resp => .offering s.digest

/-- The output ports of the fused block, by R29. -/
def FusedState.outputs : FusedState → Outputs
  | .idle => { reqReady := true, rspValid := false, rspDigest := none }
  | .busy _ _ => { reqReady := false, rspValid := false, rspDigest := none }
  | .offering d => { reqReady := false, rspValid := true, rspDigest := some d }

end Sys2Proof.Machine
end

