-- ==== Sys2Proof/Safety.lean ====
section
/-! DEFINITION. The terms in which claims speak of states and runs: which states the spec's own
rules admit, what a state in the middle of an operation must hold, and what the environment sees
of a run. -/

namespace Sys2Proof.Machine

/-- The states the rules admit (spec/10_state.md R26): in IDLE and RESP `USTEP` is 0, and in RUN it
never is 6 or 7 while `VAR = 1`. -/
def State.admitted (s : State) : Bool :=
  match s.phase with
  | .idle => decide (s.ustep = 0)
  | .run => decide (s.var = 0) || decide (s.ustep.toNat < 6)
  | .resp => decide (s.ustep = 0)

/-- The value `H` must hold when micro-operation `k` of HASHA is next: the composition of R90 up to
there; nothing before A.INIT. -/
def accumulatorAt (r : Request) (k : Nat) : Option Word :=
  let h1 := r.seed
  let h2 := absorb hardware h1 (scr hardware r.sa)
  let h3 := absorb hardware h2 (scr hardware r.da)
  let h4 := absorb hardware h3 (scr hardware (r.dp ++ r.sp : BitVec (16 + 16)))
  let h5 := xor32 h4 (scr hardware (zext32 r.proto))
  let h6 := xor32 h5 keyLen
  match k with
  | 0 => none
  | 1 => some h1
  | 2 => some h2
  | 3 => some h3
  | 4 => some h4
  | 5 => some h5
  | 6 => some h6
  | _ => some (fmix32 hardware h6)

/-- The words `(A, B, C)` when micro-operation `k` of HASHB is next: the composition of R110 up to
there; nothing before B.INIT. -/
def wordsAt (r : Request) (k : Nat) : Option Triple :=
  let iv := initialValue hardware r.seed
  let t2 := absorbedB hardware r.sa r.da r.sp r.dp r.seed
  let t3 := mixTimes hardware hardware.pBMix t2
  let t4 : Triple := { t3 with a := add32 t3.a (zext32 r.proto) }
  match k with
  | 0 => none
  | 1 => some ⟨iv, iv, iv⟩
  | 2 => some t2
  | 3 => some t3
  | 4 => some t4
  | _ => some (finalB hardware t4)

/-- An admitted state whose working registers hold what its operation has computed so far from the
latched operands, and whose `DIGEST`, once offered, is the digest of those operands. -/
def State.onTrack (s : State) : Bool :=
  s.admitted &&
  match s.phase with
  | .idle => true
  | .run =>
    if s.var = 0 then (accumulatorAt s.latched s.ustep.toNat).all (fun w => decide (s.h = w))
    else (wordsAt s.latched s.ustep.toNat).all (fun t => decide (s.abc = t))
  | .resp => decide (s.digest = hashOf s.latched)

/-- `n` steps of the machine. -/
def run (n : Nat) (s : State) : Host.Outcome State Fault Refusal := Sys2Proof.core.run n s

/-- The outputs the environment sees in a state and after each of the next `n` steps, as far as
there are any. -/
def observe : Nat → State → List Outputs
  | 0, s => [s.outputs]
  | n + 1, s =>
    s.outputs ::
      match step s with
      | .next t => observe n t
      | _ => []

/-- The request that the next step accepts, if it accepts one (R131). -/
def State.accepting (s : State) : List Request :=
  if !s.nextEdge.rst && decide (s.phase = .idle) && s.nextEdge.reqValid then [s.nextEdge.req]
  else []

/-- The digest that the next step delivers, if it delivers one (R135). -/
def State.delivering (s : State) : List Word :=
  if !s.nextEdge.rst && decide (s.phase = .resp) && s.nextEdge.rspReady then [s.digest] else []

/-- The requests accepted in the next `n` steps, in order. -/
def acceptances : Nat → State → List Request
  | 0, _ => []
  | n + 1, s =>
    s.accepting ++
      match step s with
      | .next t => acceptances n t
      | _ => []

/-- The digests delivered in the next `n` steps, in order. -/
def deliveries : Nat → State → List Word
  | 0, _ => []
  | n + 1, s =>
    s.delivering ++
      match step s with
      | .next t => deliveries n t
      | _ => []

/-- The digest still owed in a state: that of the operation in progress, if there is one. -/
def State.owed (s : State) : List Word :=
  match s.phase with
  | .idle => []
  | _ => [hashOf s.latched]

end Sys2Proof.Machine
end

