-- ==== Sys2Proof/Certificates/Slice0/Obligations.lean ====
section
/-! DEFINITION. The statements for the provers. Each docstring names the rules of spec/ that the
statement formalises, or says that it rests on a choice of the model and where that is logged. In
all statements about `step`, the inputs at the coming edges are the list `edges` of the state (the
model's own field, log entry 1), and an edge in RUN at which the block takes no STEP is one whose bit
`rest` is set (log entry 2). No statement rests on the value of a free value or on the values of the
data registers in `State.reset`. -/

open Sys2Proof Sys2Proof.Machine

/-! ### Encoding -/

/-- Decoding the code word of an instruction gives the instruction back, for every instruction with
every operand at every value (30_encoding.md R60, R62, R63). -/
def Obligations.DecodeOfEncodeIsTheInstruction : Prop :=
  ∀ i : Instr, decode (encode i) = .ok i

/-- A code word that decodes has no other encoding: each word has one meaning and each meaning one
word (R62, R63). -/
def Obligations.EncodeOfDecodeIsTheWord : Prop :=
  ∀ (cw : CodeWord) (i : Instr), decode cw = .ok i → encode i = cw

/-- R60: the request word as an integer, and its low 104 bits as the thirteen key bytes. -/
def Obligations.RequestWordLayout : Prop :=
  ∀ r : Request,
    r.word.toNat = r.sa.toNat + 2 ^ 32 * r.da.toNat + 2 ^ 64 * r.sp.toNat + 2 ^ 80 * r.dp.toNat +
      2 ^ 96 * r.proto.toNat + 2 ^ 104 * r.seed.toNat + 2 ^ 136 * r.var.toNat ∧
    ∀ i, i < 13 →
      (ser r.sa r.da r.sp r.dp r.proto).byte i = some (r.word.extractLsb' (8 * i) 8)

/-- R65 and R62: every 137-bit word is a request with some operands, and decodes to HASHA or HASHB
with those operands as bit 136 says. -/
def Obligations.EveryRequestWordDecodes : Prop :=
  ∀ w : ReqWord, ∃ r : Request, r.word = w ∧
    (w.getLsbD 136 = false →
      decode (.req w) = .ok (.hasha r.sa r.da r.sp r.dp r.proto r.seed)) ∧
    (w.getLsbD 136 = true →
      decode (.req w) = .ok (.hashb r.sa r.da r.sp r.dp r.proto r.seed))

/-- R63 and R66: the table of micro-addresses, and the two that name nothing; and the request words
that 95_test_vectors.md section 2.2 writes out for KAT and SEQ, with the operands it lists beside
them. -/
def Obligations.ListedCodeWordsDecode : Prop :=
  [0b0000#4, 0b0001#4, 0b0010#4, 0b0011#4, 0b0100#4, 0b0101#4, 0b0110#4, 0b0111#4, 0b1000#4,
    0b1001#4, 0b1010#4, 0b1011#4, 0b1100#4, 0b1101#4].map (fun u => (decode (.uaddr u)).toOption) =
    [Instr.aInit, .aBlk0, .aBlk1, .aBlk2, .aTail, .aLen, .aFmix, .aOut, .bInit, .bAbsorb, .bMix,
      .bTail, .bFinal, .bOut].map some ∧
  decode (.uaddr 0b1110#4) = .error (.unreachableMicroAddress 0b1110#4) ∧
  decode (.uaddr 0b1111#4) = .error (.unreachableMicroAddress 0b1111#4) ∧
  decode (.req 0x0_12345678_06_0050_3039_08080808_C0A80101#137) =
    .ok (.hasha 0xC0A80101#32 0x08080808#32 0x3039#16 0x0050#16 0x06#8 0x12345678#32) ∧
  decode (.req 0x1_00000000_0D_0C0B_0A09_08070605_04030201#137) =
    .ok (.hashb 0x04030201#32 0x08070605#32 0x0A09#16 0x0C0B#16 0x0D#8 0x00000000#32)

/-! ### Arithmetic -/

/-- R10: addition and subtraction modulo 2^32. -/
def Obligations.AdditionAndSubtractionWrap : Prop :=
  ∀ a b : Word,
    (add32 a b).toNat = (a.toNat + b.toNat) % 2 ^ 32 ∧
    (sub32 a b).toNat =
      if b.toNat ≤ a.toNat then a.toNat - b.toNat else a.toNat + 2 ^ 32 - b.toNat

/-- R11: multiplication keeps the low 32 bits, and each multiplier constant of the block is odd, so
that multiplying by it is a bijection, which the rule marks as derived. -/
def Obligations.MultiplicationByTheConstantsIsABijection : Prop :=
  (∀ a b : Word, (mul32 a b).toNat = a.toNat * b.toNat % 2 ^ 32) ∧
  ∀ m ∈ [hardware.c1, hardware.c2, hardware.m5, hardware.f1, hardware.f2],
    m.toNat % 2 = 1 ∧ Function.Bijective (fun x => mul32 x m)

/-- R12, R14, R15: exclusive-or bit by bit, the logical right shift, zero extension. R14 speaks of
amounts 1 to 31 only, and 16, 13, 16 (R6) are the ones in use; that the shift is logical is, in R14's
words, "this spec's reading" (92_eei_decisions.md D15). -/
def Obligations.ExclusiveOrShiftAndExtension : Prop :=
  (∀ (a b : Word) (i : Nat), (xor32 a b).getLsbD i = (a.getLsbD i != b.getLsbD i)) ∧
  (∀ (x : Word) (n : Nat), 1 ≤ n → n ≤ 31 → (shr32 x n).toNat = x.toNat / 2 ^ n) ∧
  (hardware.s1 = 16 ∧ hardware.s2 = 13 ∧ hardware.s3 = 16) ∧
  (∀ (n : Nat) (v : BitVec n), n < 32 → (zext32 v).toNat = v.toNat)

/-- R13: a rotate left by 1 to 31 moves bit `i` to bit `(i + n) mod 32` and is the formula given;
every rotate amount of the block is in that range. -/
def Obligations.RotateLeftMovesEveryBit : Prop :=
  (∀ (x : Word) (n i : Nat), 1 ≤ n → n ≤ 31 → i < 32 →
    (rotl32 x n).getLsbD ((i + n) % 32) = x.getLsbD i) ∧
  (∀ (x : Word) (n : Nat), 1 ≤ n → n ≤ 31 →
    (rotl32 x n).toNat = (x.toNat * 2 ^ n % 2 ^ 32) ||| (x.toNat / 2 ^ (32 - n))) ∧
  ∀ n ∈ hardware.r1a :: hardware.r2a :: (hardware.mixRots ++ hardware.finalRots),
    n ∈ [4, 6, 8, 11, 13, 14, 15, 16, 19, 25]

/-! ### The key buffer -/

/-- R80 and R42: the byte at each address of the key, and no byte beyond address 12. -/
def Obligations.KeyAddressMap : Prop :=
  ∀ (sa da : Word) (sp dp : Half) (pr : Byte),
    (List.range 13).map (fun i => (ser sa da sp dp pr).byte i) =
      [sa.extractLsb' 0 8, sa.extractLsb' 8 8, sa.extractLsb' 16 8, sa.extractLsb' 24 8,
        da.extractLsb' 0 8, da.extractLsb' 8 8, da.extractLsb' 16 8, da.extractLsb' 24 8,
        sp.extractLsb' 0 8, sp.extractLsb' 8 8, dp.extractLsb' 0 8, dp.extractLsb' 8 8,
        pr].map some ∧
    ∀ a, 13 ≤ a → (ser sa da sp dp pr).byte a = none

/-- R81, which the spec marks as derived from R80: SER is a bijection between FlowKeys and
thirteen-byte arrays (memories in canonical form). -/
def Obligations.SerializationIsABijection : Prop :=
  (∀ (sa da sa' da' : Word) (sp dp sp' dp' : Half) (pr pr' : Byte),
    ser sa da sp dp pr = ser sa' da' sp' dp' pr' →
      sa = sa' ∧ da = da' ∧ sp = sp' ∧ dp = dp' ∧ pr = pr') ∧
  ∀ m : Memory, m.wf = true →
    ∃ (sa da : Word) (sp dp : Half) (pr : Byte), ser sa da sp dp pr = m

/-- R43: `MemRead` on any key is defined on the four pairs and on nothing else; a four-byte read is
the little-endian number of its bytes, the one-byte read is the byte, zero-extended where it is used
as a word. -/
def Obligations.MemReadIsLittleEndianOnFourPairs : Prop :=
  ∀ m : Memory, m.wf = true →
    (∀ addr n, (memRead m addr n).isSome = true ↔
      (n = 4 ∧ (addr = 0 ∨ addr = 4 ∨ addr = 8)) ∨ (n = 1 ∧ addr = 12)) ∧
    (∀ addr, addr = 0 ∨ addr = 4 ∨ addr = 8 →
      ∃ k0 k1 k2 k3 : Byte, m.byte addr = some k0 ∧ m.byte (addr + 1) = some k1 ∧
        m.byte (addr + 2) = some k2 ∧ m.byte (addr + 3) = some k3 ∧
        (memRead m addr 4).map BitVec.toNat = some (k0.toNat + 256 * k1.toNat +
          65536 * k2.toNat + 16777216 * k3.toNat)) ∧
    ∃ k12 : Byte, m.byte 12 = some k12 ∧ memRead m 12 1 = some k12 ∧
      (zext32 k12).toNat = k12.toNat

/-- R82, which the spec marks as derived from R80 and R43: the word view of the key. -/
def Obligations.KeyWordView : Prop :=
  ∀ (sa da : Word) (sp dp : Half) (pr : Byte),
    memRead (ser sa da sp dp pr) 0 4 = some sa ∧
    memRead (ser sa da sp dp pr) 4 4 = some da ∧
    (∃ w2 : Word, memRead (ser sa da sp dp pr) 8 4 = some w2 ∧
      w2.toNat = sp.toNat + 65536 * dp.toNat) ∧
    memRead (ser sa da sp dp pr) 12 1 = some pr ∧
    (zext32 pr).toNat = pr.toNat

/-! ### The stage functions -/

/-- R91: SCR step by step, its fixed point 0, and that it is a bijection, which the rule marks as
derived. -/
def Obligations.ScrambleIsTheThreeStepsAndABijection : Prop :=
  (∀ k : Word, scr hardware k = (k * 0xCC9E2D51#32).rotateLeft 15 * 0x1B873593#32) ∧
  scr hardware 0 = 0 ∧
  Function.Bijective (scr hardware)

/-- R92: ABS step by step, its value at (0, 0), and that it is a bijection in either operand, which
the rule marks as derived. -/
def Obligations.AbsorbIsTheThreeStepsAndABijection : Prop :=
  (∀ h s : Word, absorb hardware h s = (h ^^^ s).rotateLeft 13 * 5#32 + 0xE6546B64#32) ∧
  absorb hardware 0 0 = 0xE6546B64#32 ∧
  (∀ s, Function.Bijective (fun h => absorb hardware h s)) ∧
  ∀ h, Function.Bijective (fun s => absorb hardware h s)

/-- R93: FMIX32 is its five steps, is a bijection, and gives 0 for 0 only; the rule marks the last
two as derived. -/
def Obligations.FinalMixerIsTheFiveStepsAndABijection : Prop :=
  (∀ h : Word, fmix32 hardware h =
    (let h := h ^^^ (h >>> 16)
     let h := h * 0x85EBCA6B#32
     let h := h ^^^ (h >>> 13)
     let h := h * 0xC2B2AE35#32
     h ^^^ (h >>> 16))) ∧
  Function.Bijective (fmix32 hardware) ∧
  ∀ h, fmix32 hardware h = 0 ↔ h = 0

/-- R111: MIXB is its six steps, each statement seeing the ones before, and is a bijection, which the
rule marks as derived. -/
def Obligations.MixIsTheSixStepsAndABijection : Prop :=
  (∀ a b c : Word, mixB hardware ⟨a, b, c⟩ =
    (let a := a - c; let a := a ^^^ c.rotateLeft 4; let c := c + b
     let b := b - a; let b := b ^^^ a.rotateLeft 6; let a := a + c
     let c := c - b; let c := c ^^^ b.rotateLeft 8; let b := b + a
     let a := a - c; let a := a ^^^ c.rotateLeft 16; let c := c + b
     let b := b - a; let b := b ^^^ a.rotateLeft 19; let a := a + c
     let c := c - b; let c := c ^^^ b.rotateLeft 4; let b := b + a
     ⟨a, b, c⟩)) ∧
  mixB hardware ⟨0, 0, 0⟩ = ⟨0, 0, 0⟩ ∧
  Function.Bijective (mixB hardware)

/-- R116: FINALB is its six steps, and a bijection, which the rule marks as derived; and whatever the
value of `P_B_FINAL_ROTS`, each further amount is one more step on the next pair of the cycle. -/
def Obligations.FinalizationIsTheSixStepsAndABijection : Prop :=
  (∀ a b c : Word, finalB hardware ⟨a, b, c⟩ =
    (let c := c ^^^ b; let c := c - b.rotateLeft 14
     let a := a ^^^ c; let a := a - c.rotateLeft 11
     let b := b ^^^ a; let b := b - a.rotateLeft 25
     let c := c ^^^ b; let c := c - b.rotateLeft 16
     let a := a ^^^ c; let a := a - c.rotateLeft 4
     let b := b ^^^ a; let b := b - a.rotateLeft 14
     ⟨a, b, c⟩)) ∧
  finalB hardware ⟨0, 0, 0⟩ = ⟨0, 0, 0⟩ ∧
  Function.Bijective (finalB hardware) ∧
  ∀ (rots : List Nat) (r : Nat) (t : Triple),
    finalSteps (rots ++ [r]) 0 t =
      (let q := finalSteps rots 0 t
       if rots.length % 3 = 0 then ⟨q.a, q.b, finStep q.c q.b r⟩
       else if rots.length % 3 = 1 then ⟨finStep q.a q.c r, q.b, q.c⟩
       else ⟨q.a, finStep q.b q.a r, q.c⟩)

/-- R119: with six finalization steps the last two do not reach the digest, whatever the amounts and
whatever the other parameters. -/
def Obligations.LastTwoFinalizationStepsAreDead : Prop :=
  ∀ (p : Params), p.finalRots.length = 6 →
    ∀ (sa da : Word) (sp dp : Half) (pr : Byte) (seed : Word),
      hashB p sa da sp dp pr seed =
        hashB { p with finalRots := p.finalRots.take 4 } sa da sp dp pr seed

/-- R90: HashA is the composition of the stage functions over SER and MemRead. -/
def Obligations.HashAIsTheCompositionOverTheKey : Prop :=
  ∀ (sa da : Word) (sp dp : Half) (pr : Byte) (seed : Word),
    ∃ (w0 w1 w2 : Word) (tb : Byte),
      memRead (ser sa da sp dp pr) 0 4 = some w0 ∧ memRead (ser sa da sp dp pr) 4 4 = some w1 ∧
      memRead (ser sa da sp dp pr) 8 4 = some w2 ∧ memRead (ser sa da sp dp pr) 12 1 = some tb ∧
      hashA hardware sa da sp dp pr seed =
        (let h := absorb hardware seed (scr hardware w0)
         let h := absorb hardware h (scr hardware w1)
         let h := absorb hardware h (scr hardware w2)
         let h := h ^^^ scr hardware (zext32 tb)
         let h := h ^^^ 0x0000000D#32
         fmix32 hardware h)

/-- R110, for every value of the open parameters: HashB is the composition over SER and MemRead. -/
def Obligations.HashBIsTheCompositionOverTheKey : Prop :=
  ∀ (p : Params) (sa da : Word) (sp dp : Half) (pr : Byte) (seed : Word),
    ∃ (w0 w1 w2 : Word) (tb : Byte),
      memRead (ser sa da sp dp pr) 0 4 = some w0 ∧ memRead (ser sa da sp dp pr) 4 4 = some w1 ∧
      memRead (ser sa da sp dp pr) 8 4 = some w2 ∧ memRead (ser sa da sp dp pr) 12 1 = some tb ∧
      hashB p sa da sp dp pr seed =
        (let iv := p.ivb + 0x0000000D#32 + seed
         let t := (mixB p)^[p.pBMix] ⟨iv + w0, iv + w1, iv + w2⟩
         (finalB p ⟨t.a + zext32 tb, t.b, t.c⟩).c)

/-- 95_test_vectors.md section 5: for a fixed key the map from seed to HashA digest is a
bijection, so two seeds never give one digest. -/
def Obligations.HashAIsABijectionInTheSeed : Prop :=
  ∀ (sa da : Word) (sp dp : Half) (pr : Byte),
    Function.Bijective (fun seed => hashA hardware sa da sp dp pr seed)

/-- R98 with R103: two requests of Variant A that differ in the protocol byte only have different
digests; the tail is never skipped. -/
def Obligations.HashADependsOnTheTailByte : Prop :=
  ∀ (sa da : Word) (sp dp : Half) (pr pr' : Byte) (seed : Word),
    hashA hardware sa da sp dp pr seed = hashA hardware sa da sp dp pr' seed → pr = pr'

/-! ### The instructions -/

/-- R131 with R62: a request offered in IDLE is accepted, with the whole next state; K is then the
serialization of its operands, and the registers not named are unchanged. -/
def Obligations.RequestIsAcceptedInIdle : Prop :=
  ∀ (sa da : Word) (sp dp : Half) (proto : Byte) (seed : Word) (s : State), s.phase = .idle →
    exec (.hasha sa da sp dp proto seed) s =
      .next { s with var := 0, sa := sa, da := da, sp := sp, dp := dp, pr := proto, seed := seed,
                     ustep := 0, phase := .run } ∧
    exec (.hashb sa da sp dp proto seed) s =
      .next { s with var := 1, sa := sa, da := da, sp := sp, dp := dp, pr := proto, seed := seed,
                     ustep := 0, phase := .run } ∧
    ∀ t, exec (.hasha sa da sp dp proto seed) s = .next t ∨
        exec (.hashb sa da sp dp proto seed) s = .next t →
      ∀ a, t.mem.byte a = (ser sa da sp dp proto).byte a

/-- R131, corner case, and R165: a request offered in RUN or RESP is ignored. -/
def Obligations.RequestIsIgnoredOutsideIdle : Prop :=
  ∀ (sa da : Word) (sp dp : Half) (proto : Byte) (seed : Word) (s : State), s.phase ≠ .idle →
    exec (.hasha sa da sp dp proto seed) s = .next s ∧
    exec (.hashb sa da sp dp proto seed) s = .next s

/-- R94: A.INIT. -/
def Obligations.AInitLoadsTheSeed : Prop :=
  encode .aInit = .uaddr 0b0000#4 ∧
  ∀ s : State, exec .aInit s = .next { s with h := s.seed, ustep := 1 }

/-- R95, R96, R97: the three block micro-operations, on the words `SA`, `DA` and `DP` above `SP`,
with everything else unchanged. R95's remark that a zero word "still changes `H`" is no part of
this: one value of `H` is an exception (log entry 21). -/
def Obligations.BlockOperationsAbsorbTheKeyWords : Prop :=
  encode .aBlk0 = .uaddr 0b0001#4 ∧ encode .aBlk1 = .uaddr 0b0010#4 ∧
  encode .aBlk2 = .uaddr 0b0011#4 ∧
  ∀ s : State,
    exec .aBlk0 s =
      .next { s with h := absorb hardware s.h (scr hardware s.sa), ustep := 2 } ∧
    exec .aBlk1 s =
      .next { s with h := absorb hardware s.h (scr hardware s.da), ustep := 3 } ∧
    exec .aBlk2 s =
      .next { s with h := absorb hardware s.h (scr hardware (s.dp ++ s.sp : BitVec (16 + 16))),
                     ustep := 4 }

/-- R98: A.TAIL, with no rotate and no scale-and-offset; a protocol of 0 leaves `H` unchanged and
any other changes it. -/
def Obligations.ATailFoldsTheProtocolByte : Prop :=
  encode .aTail = .uaddr 0b0100#4 ∧
  ∀ s : State, ∃ t, exec .aTail s = .next t ∧
    t = { s with h := s.h ^^^ scr hardware (zext32 s.pr), ustep := 5 } ∧
    (t.h = s.h ↔ s.pr = 0)

/-- R99: A.LEN; only bits 3, 2 and 0 of `H` are inverted. -/
def Obligations.ALenInvertsBitsThreeTwoAndZero : Prop :=
  encode .aLen = .uaddr 0b0101#4 ∧
  ∀ s : State, exec .aLen s = .next { s with h := s.h ^^^ 0x0000000D#32, ustep := 6 } ∧
    ∀ i, i < 32 → (s.h ^^^ 0x0000000D#32).getLsbD i =
      (if i = 0 ∨ i = 2 ∨ i = 3 then !s.h.getLsbD i else s.h.getLsbD i)

/-- R100: A.FMIX. -/
def Obligations.AFmixAppliesTheFinalMixer : Prop :=
  encode .aFmix = .uaddr 0b0110#4 ∧
  ∀ s : State, exec .aFmix s = .next { s with h := fmix32 hardware s.h, ustep := 7 }

/-- R101 and R118: A.OUT delivers `H` and B.OUT delivers `C`; what the ports show from the next
edge. -/
def Obligations.OutOperationsDeliverTheDigest : Prop :=
  encode .aOut = .uaddr 0b0111#4 ∧ encode .bOut = .uaddr 0b1101#4 ∧
  ∀ s : State,
    (∃ t, exec .aOut s = .next t ∧ t = { s with digest := s.h, ustep := 0, phase := .resp } ∧
      t.rspValid = true ∧ t.rspDigest = .ok s.h) ∧
    ∃ t, exec .bOut s = .next t ∧ t = { s with digest := s.c, ustep := 0, phase := .resp } ∧
      t.rspValid = true ∧ t.rspDigest = .ok s.c

/-- R112: B.INIT, the sum modulo 2^32. -/
def Obligations.BInitLoadsTheInitialValue : Prop :=
  encode .bInit = .uaddr 0b1000#4 ∧
  ∀ s : State, exec .bInit s =
    .next { s with a := 0xDEADBEFC#32 + s.seed, b := 0xDEADBEFC#32 + s.seed,
                   c := 0xDEADBEFC#32 + s.seed, ustep := 1 }

/-- R113: B.ABSORB. -/
def Obligations.BAbsorbAddsTheKeyWords : Prop :=
  encode .bAbsorb = .uaddr 0b1001#4 ∧
  ∀ s : State, exec .bAbsorb s =
    .next { s with a := s.a + s.sa, b := s.b + s.da, c := s.c + (s.dp ++ s.sp : BitVec (16 + 16)),
                   ustep := 2 }

/-- R114: B.MIX at `P_B_MIX = 0` changes nothing but `USTEP`, and MIXB would be applied that many
times at any other value. -/
def Obligations.BMixChangesOnlyTheStep : Prop :=
  encode .bMix = .uaddr 0b1010#4 ∧
  (∀ s : State, exec .bMix s = .next { s with ustep := 3 }) ∧
  hardware.pBMix = 0 ∧
  ∀ (p : Params) (n : Nat) (t : Triple), mixTimes p n t = (mixB p)^[n] t

/-- R115: B.TAIL; `B` and `C` are untouched, and a protocol of 0 leaves `A` unchanged. -/
def Obligations.BTailAddsTheProtocolByte : Prop :=
  encode .bTail = .uaddr 0b1011#4 ∧
  ∀ s : State, exec .bTail s = .next { s with a := s.a + zext32 s.pr, ustep := 4 } ∧
    (s.a + zext32 s.pr = s.a ↔ s.pr = 0)

/-- R117: B.FINAL. -/
def Obligations.BFinalAppliesTheFinalization : Prop :=
  encode .bFinal = .uaddr 0b1100#4 ∧
  ∀ s : State, exec .bFinal s =
    .next { s with a := (finalB hardware ⟨s.a, s.b, s.c⟩).a,
                   b := (finalB hardware ⟨s.a, s.b, s.c⟩).b,
                   c := (finalB hardware ⟨s.a, s.b, s.c⟩).c, ustep := 5 }

/-- The frame of the fourteen micro-operations (R21, R23, R24, R25, R44): none writes the request
latch or any byte of the key; those of Variant A never write `A`, `B`, `C`, those of Variant B never
write `H`; only the two OUT operations write `DIGEST` and `PHASE`; none touches the inputs to
come. -/
def Obligations.MicroOperationFrame : Prop :=
  ∀ (i : Instr) (s t : State), requestOf i = none → exec i s = .next t →
    t.latched = s.latched ∧ (∀ a, t.mem.byte a = s.mem.byte a) ∧
    t.edges = s.edges ∧ t.draws = s.draws ∧
    (i ∈ [Instr.aInit, .aBlk0, .aBlk1, .aBlk2, .aTail, .aLen, .aFmix, .aOut] →
      t.a = s.a ∧ t.b = s.b ∧ t.c = s.c) ∧
    (i ∈ [Instr.bInit, .bAbsorb, .bMix, .bTail, .bFinal, .bOut] → t.h = s.h) ∧
    (i ≠ .aOut → i ≠ .bOut → t.digest = s.digest ∧ t.phase = s.phase)

/-! ### The step -/

/-- A step runs the decoded instruction: in IDLE the one on the request ports, in RUN the one
`UADDR` names, on the state with the input sample consumed (R131, R132). -/
def Obligations.StepRunsTheDecodedInstruction : Prop :=
  ∀ (s : State) (i : Instr), s.nextEdge.rst = false →
    (s.phase = .idle → s.nextEdge.reqValid = true →
      decode (.req s.nextEdge.req.word) = .ok i → step s = exec i s.popEdge) ∧
    (s.phase = .run → s.nextEdge.rest = false →
      decode (.uaddr s.uaddr) = .ok i → step s = exec i s.popEdge)

/-- R131: ACCEPT, from the ports to the latch, with the whole next state. -/
def Obligations.StepAcceptsTheRequestOnThePorts : Prop :=
  ∀ s : State, s.nextEdge.rst = false → s.phase = .idle → s.nextEdge.reqValid = true →
    step s = .next
      { s with var := s.nextEdge.req.var, sa := s.nextEdge.req.sa, da := s.nextEdge.req.da,
               sp := s.nextEdge.req.sp, dp := s.nextEdge.req.dp, pr := s.nextEdge.req.proto,
               seed := s.nextEdge.req.seed, ustep := 0, phase := .run, edges := s.edges.tail }

/-- R134, R135, R136: the response is held, TAKE, idle; and an edge in RUN without a STEP (R130;
the bit `rest` is the model's, log entry 2). Nothing but the input sample is consumed, and TAKE makes
`PHASE = IDLE`. -/
def Obligations.StepHoldsTakesAndIdles : Prop :=
  ∀ s : State, s.nextEdge.rst = false →
    (s.phase = .idle → s.nextEdge.reqValid = false →
      step s = .next { s with edges := s.edges.tail }) ∧
    (s.phase = .run → s.nextEdge.rest = true →
      step s = .next { s with edges := s.edges.tail }) ∧
    (s.phase = .resp → s.nextEdge.rspReady = false →
      step s = .next { s with edges := s.edges.tail }) ∧
    (s.phase = .resp → s.nextEdge.rspReady = true →
      step s = .next { s with phase := .idle, edges := s.edges.tail })

/-- R160: RESET in any phase; the values of the other elements are left free. -/
def Obligations.ResetEdgeReturnsToIdle : Prop :=
  ∀ s : State, s.nextEdge.rst = true →
    ∃ t, step s = .next t ∧ t.phase = .idle ∧ t.ustep = 0 ∧ t.edges = s.edges.tail ∧
      t.reqReady = true ∧ t.rspValid = false

/-- R147: `rst` first; otherwise the inputs of another phase make no difference: `req_valid` and the
operands are looked at in IDLE only, `rsp_ready` in RESP only. -/
def Obligations.InputsOfAnotherPhaseAreIgnored : Prop :=
  ∀ (e : Edge) (s : State) (v y : Bool) (r : Request),
    (e.rst = true → clockEdge e s = .next s.resetEvent) ∧
    (s.phase ≠ .idle → clockEdge { e with reqValid := v, req := r } s = clockEdge e s) ∧
    (s.phase ≠ .resp → clockEdge { e with rspReady := y } s = clockEdge e s)

/-- R66: at a micro-address that names nothing the machine is stuck, by name. -/
def Obligations.UnreachableMicroAddressIsRefused : Prop :=
  ∀ s : State, s.nextEdge.rst = false → s.nextEdge.rest = false → s.phase = .run →
    s.var = 1 → s.ustep = 6 ∨ s.ustep = 7 →
      step s = .refused (.unreachableMicroAddress s.uaddr)

/-- R29: the outputs are functions of the phase and the digest, and `rsp_digest` has no value
outside RESP. -/
def Obligations.OutputsFollowThePhase : Prop :=
  ∀ s : State,
    (s.reqReady = true ↔ s.phase = .idle) ∧ (s.rspValid = true ↔ s.phase = .resp) ∧
    (s.phase = .resp → s.rspDigest = .ok s.digest) ∧
    (s.phase ≠ .resp → s.rspDigest = .error .digestNotOffered)

/-- R27: the only transitions of `PHASE`. An edge in RUN at which the block takes no STEP (R130) is
one whose bit `rest`, the model's, is set (log entry 2). -/
def Obligations.PhaseTransitions : Prop :=
  ∀ s t : State, step s = .next t →
    (s.nextEdge.rst = true → t.phase = .idle) ∧
    (s.nextEdge.rst = false →
      (s.phase = .idle → t.phase = if s.nextEdge.reqValid then .run else .idle) ∧
      (s.phase = .run → t.phase =
        if s.nextEdge.rest = false ∧ (s.uaddr = 0b0111#4 ∨ s.uaddr = 0b1101#4) then .resp
        else .run) ∧
      (s.phase = .resp → t.phase = if s.nextEdge.rspReady then .idle else .resp))

/-- R133: each STEP adds 1 to `USTEP`, but for A.OUT at 7 and B.OUT at 5, which set it to 0 and end
the sequence; `VAR` does not change, and no data value has a say. -/
def Obligations.ControlIsSequential : Prop :=
  ∀ s : State, s.admitted = true → s.phase = .run → s.nextEdge.rst = false →
    s.nextEdge.rest = false →
    ∃ t, step s = .next t ∧ t.var = s.var ∧
      (s.ustep = (if s.var = 0 then 7 else 5) → t.ustep = 0 ∧ t.phase = .resp) ∧
      (s.ustep ≠ (if s.var = 0 then 7 else 5) → t.ustep = s.ustep + 1 ∧ t.phase = .run)

/-- R21, R25: over a step without RESET the request latch changes only at ACCEPT, and `DIGEST` only
when a response is first offered. -/
def Obligations.LatchAndDigestAreStable : Prop :=
  ∀ s t : State, step s = .next t → s.nextEdge.rst = false →
    (¬ (s.phase = .idle ∧ s.nextEdge.reqValid = true) → t.latched = s.latched) ∧
    (¬ (s.phase = .run ∧ t.phase = .resp) → t.digest = s.digest)

/-! ### Invariants -/

/-- The state right after reset (R33): what the spec gives it a value for, and the outputs. -/
def Obligations.ResetStateControlValues : Prop :=
  State.reset.phase = .idle ∧ State.reset.ustep = 0 ∧
  State.reset.outputs = { reqReady := true, rspValid := false, rspDigest := none }

/-- The state after reset satisfies both invariants below. -/
def Obligations.ResetStateSatisfiesTheInvariants : Prop :=
  State.reset.admitted = true ∧ State.reset.onTrack = true

/-- R145 and R26: from every admitted state, whatever the inputs, a step answers a next state, never
a fault and never a refusal, and that state is admitted. -/
def Obligations.StepFromAnAdmittedStateAnswersAnAdmittedState : Prop :=
  ∀ s : State, s.admitted = true → ∃ t, step s = .next t ∧ t.admitted = true

/-- The working registers always hold what the operation in progress has computed from its latched
operands, and a digest offered is `HashA` or `HashB` of them (R90, R110, R140): every step keeps
this, whatever the inputs. -/
def Obligations.StepKeepsTheOperationOnTrack : Prop :=
  ∀ s t : State, s.onTrack = true → step s = .next t → t.onTrack = true

/-! ### Operations -/

/-- R141 with R90, R110: a request accepted is answered with its digest once the block has taken its
STEP events, however the edges without a STEP are spread among them, if no RESET comes. -/
def Obligations.AcceptedRequestReachesItsDigest : Prop :=
  ∀ (s : State) (e : Edge) (es : List Edge), s.phase = .idle → s.edges = e :: es →
    e.rst = false → e.reqValid = true →
    (∀ x ∈ es, x.rst = false ∧ x.rspReady = false) →
    stepsOf e.req.var ≤ (es.filter (fun x => !x.rest)).length →
    ∃ t, run (es.length + 1) s = .next t ∧ t.phase = .resp ∧ t.rspDigest = .ok (hashOf e.req) ∧
      t.edges = []

/-- R132: eight STEP events for HASHA and six for HASHB, the `k`-th of them executing
micro-operation `k`, after which `PHASE = RESP`. -/
def Obligations.OperationTakesEightOrSixSteps : Prop :=
  ∀ (s : State) (r : Request) (k : Nat), s.phase = .idle →
    s.edges = Edge.offering r :: List.replicate k Edge.quiet → k ≤ (if r.var = 0 then 8 else 6) →
    ∃ t, run (k + 1) s = .next t ∧
      (k < (if r.var = 0 then 8 else 6) → t.phase = .run ∧ t.ustep.toNat = k ∧ t.var = r.var) ∧
      (k = (if r.var = 0 then 8 else 6) → t.phase = .resp ∧ t.digest = hashOf r)

/-- R135 and R140: over any run without RESET from an IDLE state, whatever the requester does, the
digests delivered are those of the requests accepted, in order, one each; at most the last is still
owed. -/
def Obligations.DeliveriesAreTheDigestsOfTheAcceptances : Prop :=
  ∀ (n : Nat) (s : State), s.phase = .idle → (∀ e ∈ s.edges, e.rst = false) →
    ∃ t, run n s = .next t ∧
      (acceptances n s).map hashOf = deliveries n s ++ t.owed

/-- R3, R34, R161: from IDLE, what the environment sees depends on the inputs alone: two states that
agree in nothing but the inputs to come show the same outputs for ever. -/
def Obligations.OutputsDependOnTheInputsAlone : Prop :=
  ∀ (n : Nat) (s s' : State), s.phase = .idle → s'.phase = .idle → s.edges = s'.edges →
    observe n s = observe n s'

/-- R137: the step-by-step block is at every moment a fused block, which computes the digest in one
event and holds no working register, and shows the same outputs. (How many STEP events are still to
come is the fused block's latency; rests are those of log entry 2.) -/
def Obligations.StepRefinesTheFusedBlock : Prop :=
  ∀ s : State, s.onTrack = true →
    s.outputs = s.fused.outputs ∧
    ∃ t, step s = .next t ∧ t.fused = fusedEdge s.nextEdge s.fused

/-- R162: after a RESET, and until another request is accepted, no response is delivered and none is
offered: the operation that was in progress is abandoned for good. -/
def Obligations.ResetAbandonsTheOperation : Prop :=
  ∀ (s : State) (n : Nat), s.nextEdge.rst = true →
    ∃ t, step s = .next t ∧
      (acceptances n t = [] → deliveries n t = [] ∧
        ∀ o ∈ observe n t, o = { reqReady := true, rspValid := false, rspDigest := none })

/-- R68: the assembler refuses a line with a number that does not fit its field, and of any other line
it makes the transaction of one request, whose operands are exactly the numbers written and whose
variant is the mnemonic's; that request is what the first input sample puts on the ports. (The
samples after the first, the wait and the taking, are those of log entry 17.) -/
def Obligations.AssemblerNeverTruncates : Prop :=
  ∀ sa da sp dp proto seed : Nat,
    (assembleLine (.hasha sa da sp dp proto seed) = none ↔
      ¬ (sa < 2 ^ 32 ∧ da < 2 ^ 32 ∧ sp < 2 ^ 16 ∧ dp < 2 ^ 16 ∧ proto < 2 ^ 8 ∧
        seed < 2 ^ 32)) ∧
    (assembleLine (.hashb sa da sp dp proto seed) = none ↔
      ¬ (sa < 2 ^ 32 ∧ da < 2 ^ 32 ∧ sp < 2 ^ 16 ∧ dp < 2 ^ 16 ∧ proto < 2 ^ 8 ∧
        seed < 2 ^ 32)) ∧
    (∀ es, assembleLine (.hasha sa da sp dp proto seed) = some es →
      ∃ r : Request, es = transaction r ∧
        es.head?.map (fun e => (e.reqValid, e.req)) = some (true, r) ∧ r.var = 0 ∧
        r.sa.toNat = sa ∧ r.da.toNat = da ∧ r.sp.toNat = sp ∧ r.dp.toNat = dp ∧
        r.proto.toNat = proto ∧ r.seed.toNat = seed) ∧
    (∀ es, assembleLine (.hashb sa da sp dp proto seed) = some es →
      ∃ r : Request, es = transaction r ∧
        es.head?.map (fun e => (e.reqValid, e.req)) = some (true, r) ∧ r.var = 1 ∧
        r.sa.toNat = sa ∧ r.da.toNat = da ∧ r.sp.toNat = sp ∧ r.dp.toNat = dp ∧
        r.proto.toNat = proto ∧ r.seed.toNat = seed) ∧
    ∀ (var : BitVec 1) (r : Request), requestOfOperands var sa da sp dp proto seed = some r →
      r.var = var ∧ r.sa.toNat = sa ∧ r.da.toNat = da ∧ r.sp.toNat = sp ∧ r.dp.toNat = dp ∧
      r.proto.toNat = proto ∧ r.seed.toNat = seed

/-- A list of requests issued one after another is answered in order, each with the digest of its
own operands, and the block ends idle (R49, R135, R139; the open-loop requester is the model's,
log entry 17). -/
def Obligations.ProgramOfRequestsIsAnsweredInOrder : Prop :=
  ∀ (rs : List Request) (s : State), s.phase = .idle → s.edges = transactions rs →
    deliveries (transactions rs).length s = rs.map hashOf ∧
    ∃ t, run (transactions rs).length s = .next t ∧ t.phase = .idle ∧ t.edges = []
end

