-- ==== Sys2Proof/Laws/Assembler.lean ====
section
/-! SUPPORT. What the assembler's check says, and what a request made of six numbers holds. -/

namespace Sys2Proof.Machine

/-- The check of six operands says that each fits its field. -/
theorem operandsFit_iff (sa da sp dp proto seed : Nat) :
    operandsFit sa da sp dp proto seed = true ↔
      sa < 2 ^ 32 ∧ da < 2 ^ 32 ∧ sp < 2 ^ 16 ∧ dp < 2 ^ 16 ∧ proto < 2 ^ 8 ∧ seed < 2 ^ 32 := by
  simp [operandsFit, and_assoc]

/-- No request is made of numbers that do not all fit. -/
theorem requestOfOperands_none (var : BitVec 1) {sa da sp dp proto seed : Nat}
    (h : operandsFit sa da sp dp proto seed = false) :
    requestOfOperands var sa da sp dp proto seed = none := by
  unfold requestOfOperands
  rw [if_neg (by rw [h]; exact Bool.false_ne_true)]

/-- A request is made of numbers that all fit. -/
theorem requestOfOperands_some (var : BitVec 1) {sa da sp dp proto seed : Nat}
    (h : operandsFit sa da sp dp proto seed = true) :
    requestOfOperands var sa da sp dp proto seed =
      some ⟨var, BitVec.ofNat 32 sa, BitVec.ofNat 32 da, BitVec.ofNat 16 sp, BitVec.ofNat 16 dp,
        BitVec.ofNat 8 proto, BitVec.ofNat 32 seed⟩ := by
  unfold requestOfOperands
  rw [if_pos h]

/-- A request line is assembled into the transaction of its request, or refused with it. -/
theorem assembleLine_hasha (sa da sp dp proto seed : Nat) :
    assembleLine (.hasha sa da sp dp proto seed) =
      (requestOfOperands 0 sa da sp dp proto seed).map transaction := (rfl)

/-- The same of the other variant. -/
theorem assembleLine_hashb (sa da sp dp proto seed : Nat) :
    assembleLine (.hashb sa da sp dp proto seed) =
      (requestOfOperands 1 sa da sp dp proto seed).map transaction := (rfl)

/-- A transaction begins with the edge at which its request is offered. -/
@[simp] theorem transaction_head (r : Request) :
    (transaction r).head? = some (Edge.offering r) := (rfl)

end Sys2Proof.Machine
end

