-- ==== Sys2Proof/Laws/Constants.lean ====
section
/-! SUPPORT. The parameter record of this hardware passes its checks: every rotate and shift amount
is one on which the primitives are defined (spec/00_scope.md R13, R14). -/

namespace Sys2Proof.Machine

theorem hardware_wellFormed : hardware.wellFormed = true := by decide

end Sys2Proof.Machine
end

