-- ==== Sys2Proof/Laws/State.lean ====
section
/-! SUPPORT. One lemma per field per update of `State`, each true by `rfl`, so that no proof unfolds
a record update. They are written `(rfl)`, in parentheses, so that `simp` cites them as equations and
does not ask the kernel to compare two states field by field (which unfolds the hash arithmetic). -/

namespace Sys2Proof.Machine

variable (s : State)

/-! ### `State.withH` -/

@[simp] theorem State.withH_var (h : Word) (u : BitVec 3) : (s.withH h u).var = s.var := (rfl)
@[simp] theorem State.withH_sa (h : Word) (u : BitVec 3) : (s.withH h u).sa = s.sa := (rfl)
@[simp] theorem State.withH_da (h : Word) (u : BitVec 3) : (s.withH h u).da = s.da := (rfl)
@[simp] theorem State.withH_sp (h : Word) (u : BitVec 3) : (s.withH h u).sp = s.sp := (rfl)
@[simp] theorem State.withH_dp (h : Word) (u : BitVec 3) : (s.withH h u).dp = s.dp := (rfl)
@[simp] theorem State.withH_pr (h : Word) (u : BitVec 3) : (s.withH h u).pr = s.pr := (rfl)
@[simp] theorem State.withH_seed (h : Word) (u : BitVec 3) : (s.withH h u).seed = s.seed := (rfl)
@[simp] theorem State.withH_h (h : Word) (u : BitVec 3) : (s.withH h u).h = h := (rfl)
@[simp] theorem State.withH_a (h : Word) (u : BitVec 3) : (s.withH h u).a = s.a := (rfl)
@[simp] theorem State.withH_b (h : Word) (u : BitVec 3) : (s.withH h u).b = s.b := (rfl)
@[simp] theorem State.withH_c (h : Word) (u : BitVec 3) : (s.withH h u).c = s.c := (rfl)
@[simp] theorem State.withH_digest (h : Word) (u : BitVec 3) :
    (s.withH h u).digest = s.digest := (rfl)
@[simp] theorem State.withH_ustep (h : Word) (u : BitVec 3) : (s.withH h u).ustep = u := (rfl)
@[simp] theorem State.withH_phase (h : Word) (u : BitVec 3) : (s.withH h u).phase = s.phase := (rfl)
@[simp] theorem State.withH_edges (h : Word) (u : BitVec 3) : (s.withH h u).edges = s.edges := (rfl)
@[simp] theorem State.withH_draws (h : Word) (u : BitVec 3) : (s.withH h u).draws = s.draws := (rfl)

/-! ### `State.withAbc` -/

@[simp] theorem State.withAbc_var (t : Triple) (u : BitVec 3) : (s.withAbc t u).var = s.var := (rfl)
@[simp] theorem State.withAbc_sa (t : Triple) (u : BitVec 3) : (s.withAbc t u).sa = s.sa := (rfl)
@[simp] theorem State.withAbc_da (t : Triple) (u : BitVec 3) : (s.withAbc t u).da = s.da := (rfl)
@[simp] theorem State.withAbc_sp (t : Triple) (u : BitVec 3) : (s.withAbc t u).sp = s.sp := (rfl)
@[simp] theorem State.withAbc_dp (t : Triple) (u : BitVec 3) : (s.withAbc t u).dp = s.dp := (rfl)
@[simp] theorem State.withAbc_pr (t : Triple) (u : BitVec 3) : (s.withAbc t u).pr = s.pr := (rfl)
@[simp] theorem State.withAbc_seed (t : Triple) (u : BitVec 3) :
    (s.withAbc t u).seed = s.seed := (rfl)
@[simp] theorem State.withAbc_h (t : Triple) (u : BitVec 3) : (s.withAbc t u).h = s.h := (rfl)
@[simp] theorem State.withAbc_a (t : Triple) (u : BitVec 3) : (s.withAbc t u).a = t.a := (rfl)
@[simp] theorem State.withAbc_b (t : Triple) (u : BitVec 3) : (s.withAbc t u).b = t.b := (rfl)
@[simp] theorem State.withAbc_c (t : Triple) (u : BitVec 3) : (s.withAbc t u).c = t.c := (rfl)
@[simp] theorem State.withAbc_digest (t : Triple) (u : BitVec 3) :
    (s.withAbc t u).digest = s.digest := (rfl)
@[simp] theorem State.withAbc_ustep (t : Triple) (u : BitVec 3) : (s.withAbc t u).ustep = u := (rfl)
@[simp] theorem State.withAbc_phase (t : Triple) (u : BitVec 3) :
    (s.withAbc t u).phase = s.phase := (rfl)
@[simp] theorem State.withAbc_edges (t : Triple) (u : BitVec 3) :
    (s.withAbc t u).edges = s.edges := (rfl)
@[simp] theorem State.withAbc_draws (t : Triple) (u : BitVec 3) :
    (s.withAbc t u).draws = s.draws := (rfl)

/-! ### `State.deliver` -/

@[simp] theorem State.deliver_var (d : Word) : (s.deliver d).var = s.var := (rfl)
@[simp] theorem State.deliver_sa (d : Word) : (s.deliver d).sa = s.sa := (rfl)
@[simp] theorem State.deliver_da (d : Word) : (s.deliver d).da = s.da := (rfl)
@[simp] theorem State.deliver_sp (d : Word) : (s.deliver d).sp = s.sp := (rfl)
@[simp] theorem State.deliver_dp (d : Word) : (s.deliver d).dp = s.dp := (rfl)
@[simp] theorem State.deliver_pr (d : Word) : (s.deliver d).pr = s.pr := (rfl)
@[simp] theorem State.deliver_seed (d : Word) : (s.deliver d).seed = s.seed := (rfl)
@[simp] theorem State.deliver_h (d : Word) : (s.deliver d).h = s.h := (rfl)
@[simp] theorem State.deliver_a (d : Word) : (s.deliver d).a = s.a := (rfl)
@[simp] theorem State.deliver_b (d : Word) : (s.deliver d).b = s.b := (rfl)
@[simp] theorem State.deliver_c (d : Word) : (s.deliver d).c = s.c := (rfl)
@[simp] theorem State.deliver_digest (d : Word) : (s.deliver d).digest = d := (rfl)
@[simp] theorem State.deliver_ustep (d : Word) : (s.deliver d).ustep = 0 := (rfl)
@[simp] theorem State.deliver_phase (d : Word) : (s.deliver d).phase = .resp := (rfl)
@[simp] theorem State.deliver_edges (d : Word) : (s.deliver d).edges = s.edges := (rfl)
@[simp] theorem State.deliver_draws (d : Word) : (s.deliver d).draws = s.draws := (rfl)

/-! ### `State.accept` -/

@[simp] theorem State.accept_var (r : Request) : (s.accept r).var = r.var := (rfl)
@[simp] theorem State.accept_sa (r : Request) : (s.accept r).sa = r.sa := (rfl)
@[simp] theorem State.accept_da (r : Request) : (s.accept r).da = r.da := (rfl)
@[simp] theorem State.accept_sp (r : Request) : (s.accept r).sp = r.sp := (rfl)
@[simp] theorem State.accept_dp (r : Request) : (s.accept r).dp = r.dp := (rfl)
@[simp] theorem State.accept_pr (r : Request) : (s.accept r).pr = r.proto := (rfl)
@[simp] theorem State.accept_seed (r : Request) : (s.accept r).seed = r.seed := (rfl)
@[simp] theorem State.accept_h (r : Request) : (s.accept r).h = s.h := (rfl)
@[simp] theorem State.accept_a (r : Request) : (s.accept r).a = s.a := (rfl)
@[simp] theorem State.accept_b (r : Request) : (s.accept r).b = s.b := (rfl)
@[simp] theorem State.accept_c (r : Request) : (s.accept r).c = s.c := (rfl)
@[simp] theorem State.accept_digest (r : Request) : (s.accept r).digest = s.digest := (rfl)
@[simp] theorem State.accept_ustep (r : Request) : (s.accept r).ustep = 0 := (rfl)
@[simp] theorem State.accept_phase (r : Request) : (s.accept r).phase = .run := (rfl)
@[simp] theorem State.accept_edges (r : Request) : (s.accept r).edges = s.edges := (rfl)
@[simp] theorem State.accept_draws (r : Request) : (s.accept r).draws = s.draws := (rfl)

/-! ### `State.take` -/

@[simp] theorem State.take_var : (s.take).var = s.var := (rfl)
@[simp] theorem State.take_sa : (s.take).sa = s.sa := (rfl)
@[simp] theorem State.take_da : (s.take).da = s.da := (rfl)
@[simp] theorem State.take_sp : (s.take).sp = s.sp := (rfl)
@[simp] theorem State.take_dp : (s.take).dp = s.dp := (rfl)
@[simp] theorem State.take_pr : (s.take).pr = s.pr := (rfl)
@[simp] theorem State.take_seed : (s.take).seed = s.seed := (rfl)
@[simp] theorem State.take_h : (s.take).h = s.h := (rfl)
@[simp] theorem State.take_a : (s.take).a = s.a := (rfl)
@[simp] theorem State.take_b : (s.take).b = s.b := (rfl)
@[simp] theorem State.take_c : (s.take).c = s.c := (rfl)
@[simp] theorem State.take_digest : (s.take).digest = s.digest := (rfl)
@[simp] theorem State.take_ustep : (s.take).ustep = s.ustep := (rfl)
@[simp] theorem State.take_phase : (s.take).phase = .idle := (rfl)
@[simp] theorem State.take_edges : (s.take).edges = s.edges := (rfl)
@[simp] theorem State.take_draws : (s.take).draws = s.draws := (rfl)

/-! ### `State.popEdge` -/

@[simp] theorem State.popEdge_var : (s.popEdge).var = s.var := (rfl)
@[simp] theorem State.popEdge_sa : (s.popEdge).sa = s.sa := (rfl)
@[simp] theorem State.popEdge_da : (s.popEdge).da = s.da := (rfl)
@[simp] theorem State.popEdge_sp : (s.popEdge).sp = s.sp := (rfl)
@[simp] theorem State.popEdge_dp : (s.popEdge).dp = s.dp := (rfl)
@[simp] theorem State.popEdge_pr : (s.popEdge).pr = s.pr := (rfl)
@[simp] theorem State.popEdge_seed : (s.popEdge).seed = s.seed := (rfl)
@[simp] theorem State.popEdge_h : (s.popEdge).h = s.h := (rfl)
@[simp] theorem State.popEdge_a : (s.popEdge).a = s.a := (rfl)
@[simp] theorem State.popEdge_b : (s.popEdge).b = s.b := (rfl)
@[simp] theorem State.popEdge_c : (s.popEdge).c = s.c := (rfl)
@[simp] theorem State.popEdge_digest : (s.popEdge).digest = s.digest := (rfl)
@[simp] theorem State.popEdge_ustep : (s.popEdge).ustep = s.ustep := (rfl)
@[simp] theorem State.popEdge_phase : (s.popEdge).phase = s.phase := (rfl)
@[simp] theorem State.popEdge_edges : (s.popEdge).edges = s.edges.tail := (rfl)
@[simp] theorem State.popEdge_draws : (s.popEdge).draws = s.draws := (rfl)

/-! ### `State.withEdge` -/

@[simp] theorem State.withEdge_var (e : Edge) : (s.withEdge e).var = s.var := (rfl)
@[simp] theorem State.withEdge_sa (e : Edge) : (s.withEdge e).sa = s.sa := (rfl)
@[simp] theorem State.withEdge_da (e : Edge) : (s.withEdge e).da = s.da := (rfl)
@[simp] theorem State.withEdge_sp (e : Edge) : (s.withEdge e).sp = s.sp := (rfl)
@[simp] theorem State.withEdge_dp (e : Edge) : (s.withEdge e).dp = s.dp := (rfl)
@[simp] theorem State.withEdge_pr (e : Edge) : (s.withEdge e).pr = s.pr := (rfl)
@[simp] theorem State.withEdge_seed (e : Edge) : (s.withEdge e).seed = s.seed := (rfl)
@[simp] theorem State.withEdge_h (e : Edge) : (s.withEdge e).h = s.h := (rfl)
@[simp] theorem State.withEdge_a (e : Edge) : (s.withEdge e).a = s.a := (rfl)
@[simp] theorem State.withEdge_b (e : Edge) : (s.withEdge e).b = s.b := (rfl)
@[simp] theorem State.withEdge_c (e : Edge) : (s.withEdge e).c = s.c := (rfl)
@[simp] theorem State.withEdge_digest (e : Edge) : (s.withEdge e).digest = s.digest := (rfl)
@[simp] theorem State.withEdge_ustep (e : Edge) : (s.withEdge e).ustep = s.ustep := (rfl)
@[simp] theorem State.withEdge_phase (e : Edge) : (s.withEdge e).phase = s.phase := (rfl)
@[simp] theorem State.withEdge_edges (e : Edge) : (s.withEdge e).edges = e :: s.edges.tail := (rfl)
@[simp] theorem State.withEdge_draws (e : Edge) : (s.withEdge e).draws = s.draws := (rfl)

/-! ### `State.resetEvent` -/

@[simp] theorem State.resetEvent_var : (s.resetEvent).var = Config.freeBit s.draws := (rfl)
@[simp] theorem State.resetEvent_sa : (s.resetEvent).sa = Config.freeWord (s.draws + 1) := (rfl)
@[simp] theorem State.resetEvent_da : (s.resetEvent).da = Config.freeWord (s.draws + 2) := (rfl)
@[simp] theorem State.resetEvent_sp : (s.resetEvent).sp = Config.freeHalf (s.draws + 3) := (rfl)
@[simp] theorem State.resetEvent_dp : (s.resetEvent).dp = Config.freeHalf (s.draws + 4) := (rfl)
@[simp] theorem State.resetEvent_pr : (s.resetEvent).pr = Config.freeByte (s.draws + 5) := (rfl)
@[simp] theorem State.resetEvent_seed : (s.resetEvent).seed = Config.freeWord (s.draws + 6) := (rfl)
@[simp] theorem State.resetEvent_h : (s.resetEvent).h = Config.freeWord (s.draws + 7) := (rfl)
@[simp] theorem State.resetEvent_a : (s.resetEvent).a = Config.freeWord (s.draws + 8) := (rfl)
@[simp] theorem State.resetEvent_b : (s.resetEvent).b = Config.freeWord (s.draws + 9) := (rfl)
@[simp] theorem State.resetEvent_c : (s.resetEvent).c = Config.freeWord (s.draws + 10) := (rfl)
@[simp] theorem State.resetEvent_digest :
    (s.resetEvent).digest = Config.freeWord (s.draws + 11) := (rfl)
@[simp] theorem State.resetEvent_ustep : (s.resetEvent).ustep = 0 := (rfl)
@[simp] theorem State.resetEvent_phase : (s.resetEvent).phase = .idle := (rfl)
@[simp] theorem State.resetEvent_edges : (s.resetEvent).edges = s.edges := (rfl)
@[simp] theorem State.resetEvent_draws : (s.resetEvent).draws = s.draws + 12 := (rfl)

/-! ### Views -/

@[simp] theorem State.withH_mem (h : Word) (u : BitVec 3) : (s.withH h u).mem = s.mem := (rfl)
@[simp] theorem State.withAbc_mem (t : Triple) (u : BitVec 3) : (s.withAbc t u).mem = s.mem := (rfl)
@[simp] theorem State.deliver_mem (d : Word) : (s.deliver d).mem = s.mem := (rfl)
@[simp] theorem State.take_mem : s.take.mem = s.mem := (rfl)
@[simp] theorem State.popEdge_mem : s.popEdge.mem = s.mem := (rfl)
@[simp] theorem State.withEdge_mem (e : Edge) : (s.withEdge e).mem = s.mem := (rfl)
@[simp] theorem State.accept_mem (r : Request) :
    (s.accept r).mem = ser r.sa r.da r.sp r.dp r.proto := (rfl)
@[simp] theorem State.withH_latched (h : Word) (u : BitVec 3) :
    (s.withH h u).latched = s.latched := (rfl)
@[simp] theorem State.withAbc_latched (t : Triple) (u : BitVec 3) :
    (s.withAbc t u).latched = s.latched := (rfl)
@[simp] theorem State.deliver_latched (d : Word) : (s.deliver d).latched = s.latched := (rfl)
@[simp] theorem State.take_latched : s.take.latched = s.latched := (rfl)
@[simp] theorem State.popEdge_latched : s.popEdge.latched = s.latched := (rfl)
@[simp] theorem State.withEdge_latched (e : Edge) : (s.withEdge e).latched = s.latched := (rfl)
@[simp] theorem State.accept_latched (r : Request) : (s.accept r).latched = r := (rfl)
@[simp] theorem State.withAbc_abc (t : Triple) (u : BitVec 3) : (s.withAbc t u).abc = t := (rfl)
@[simp] theorem State.popEdge_abc : s.popEdge.abc = s.abc := (rfl)
@[simp] theorem State.popEdge_uaddr : s.popEdge.uaddr = s.uaddr := (rfl)
@[simp] theorem State.withEdge_nextEdge (e : Edge) : (s.withEdge e).nextEdge = e := (rfl)

end Sys2Proof.Machine
end

