-- ==== Sys2Proof/Laws/Ops.lean ====
section
/-! SUPPORT. For each shared operation, once, everything it can do; proofs cite these lemmas and do
not unfold the operations. -/

namespace Sys2Proof.Machine

/-! ### The key buffer -/

/-- Serialization makes a memory in canonical form. -/
theorem ser_wf (sa da : Word) (sp dp : Half) (pr : Byte) : (ser sa da sp dp pr).wf = true := rfl

/-- The key buffer of every state is in canonical form: the two events that write it (ACCEPT and
RESET) keep it so, since it is only ever a serialization. -/
theorem State.mem_wf (s : State) : s.mem.wf = true := ser_wf ..

/-- The key buffer right after reset is in canonical form. -/
theorem State.reset_mem_wf : State.reset.mem.wf = true := State.mem_wf _

/-- A 32-bit word is its four bytes, least significant last. -/
theorem word_of_bytes (x : Word) :
    (x.extractLsb' 24 8 ++ x.extractLsb' 16 8 ++ x.extractLsb' 8 8 ++ x.extractLsb' 0 8 :
      BitVec (8 + 8 + 8 + 8)) = x := by
  apply BitVec.eq_of_getLsbD_eq
  intro i hi
  simp only [BitVec.getLsbD_append, BitVec.getLsbD_extractLsb']
  rcases Nat.lt_or_ge i 8 with h1 | h1
  · simp [h1]
  rcases Nat.lt_or_ge i 16 with h2 | h2
  · simp [show ¬ i < 8 by omega, show i - 8 < 8 by omega, show 8 + (i - 8) = i by omega]
  rcases Nat.lt_or_ge i 24 with h3 | h3
  · simp [show ¬ i < 8 by omega, show ¬ i - 8 < 8 by omega, show i - 8 - 8 < 8 by omega,
      show 16 + (i - 8 - 8) = i by omega]
  · simp [show ¬ i < 8 by omega, show ¬ i - 8 < 8 by omega, show ¬ i - 8 - 8 < 8 by omega,
      show i - 8 - 8 - 8 < 8 by omega, show 24 + (i - 8 - 8 - 8) = i by omega]

/-- Two ports in one word are their four bytes, the second port above the first. -/
theorem word_of_ports (p q : Half) :
    (q.extractLsb' 8 8 ++ q.extractLsb' 0 8 ++ p.extractLsb' 8 8 ++ p.extractLsb' 0 8 :
      BitVec (8 + 8 + 8 + 8)) = (q ++ p : BitVec (16 + 16)) := by
  apply BitVec.eq_of_getLsbD_eq
  intro i hi
  simp only [BitVec.getLsbD_append, BitVec.getLsbD_extractLsb']
  rcases Nat.lt_or_ge i 8 with h1 | h1
  · simp [h1, show i < 16 by omega]
  rcases Nat.lt_or_ge i 16 with h2 | h2
  · simp [show ¬ i < 8 by omega, h2, show i - 8 < 8 by omega, show 8 + (i - 8) = i by omega]
  rcases Nat.lt_or_ge i 24 with h3 | h3
  · simp [show ¬ i < 8 by omega, show ¬ i < 16 by omega, show ¬ i - 8 < 8 by omega,
      show i - 8 - 8 = i - 16 by omega, show i - 16 < 8 by omega]
  · simp [show ¬ i < 8 by omega, show ¬ i < 16 by omega, show ¬ i - 8 < 8 by omega,
      show ¬ i - 8 - 8 < 8 by omega, show i - 8 - 8 - 8 < 8 by omega,
      show 8 + (i - 8 - 8 - 8) = i - 16 by omega]

/-- Where `MemRead` is not defined it gives nothing. -/
theorem memRead_undefined {m : Memory} {addr n : Nat} (h : memReadDefined addr n = false) :
    memRead m addr n = none := by
  simp [memRead, h]

/-- Block 0 of the key is the source address. -/
@[simp] theorem State.withBlock_zero (s : State)
    (f : Word → Host.Outcome State Fault Refusal) : s.withBlock 0 f = f s.sa := by
  rw [show s.withBlock 0 f = f (s.sa.extractLsb' 24 8 ++ s.sa.extractLsb' 16 8 ++
    s.sa.extractLsb' 8 8 ++ s.sa.extractLsb' 0 8 : BitVec (8 + 8 + 8 + 8)) from rfl, word_of_bytes]

/-- Block 1 of the key is the destination address. -/
@[simp] theorem State.withBlock_four (s : State)
    (f : Word → Host.Outcome State Fault Refusal) : s.withBlock 4 f = f s.da := by
  rw [show s.withBlock 4 f = f (s.da.extractLsb' 24 8 ++ s.da.extractLsb' 16 8 ++
    s.da.extractLsb' 8 8 ++ s.da.extractLsb' 0 8 : BitVec (8 + 8 + 8 + 8)) from rfl, word_of_bytes]

/-- Block 2 of the key is the two ports, the source port in the low half. -/
@[simp] theorem State.withBlock_eight (s : State)
    (f : Word → Host.Outcome State Fault Refusal) :
    s.withBlock 8 f = f (s.dp ++ s.sp : BitVec (16 + 16)) := by
  rw [show s.withBlock 8 f = f (s.dp.extractLsb' 8 8 ++ s.dp.extractLsb' 0 8 ++
    s.sp.extractLsb' 8 8 ++ s.sp.extractLsb' 0 8 : BitVec (8 + 8 + 8 + 8)) from rfl, word_of_ports]

/-- The tail of the key is the protocol, zero-extended. -/
@[simp] theorem State.withTail_eq (s : State) (f : Word → Host.Outcome State Fault Refusal) :
    s.withTail f = f (zext32 s.pr) := rfl

/-! ### The events -/

/-- A request offered in IDLE is accepted. -/
theorem State.offer_idle {s : State} (h : s.phase = .idle) (r : Request) :
    s.offer r = .next (s.accept r) := by
  simp [State.offer, h]

/-- A request offered in RUN or RESP changes nothing. -/
theorem State.offer_busy {s : State} (h : s.phase ≠ .idle) (r : Request) :
    s.offer r = .next s := by
  cases hp : s.phase <;> simp_all [State.offer]

/-- A code word answers a next state only through the instruction it decodes to. -/
theorem runCode_next {cw : CodeWord} {s t : State} (h : runCode cw s = .next t) :
    ∃ i, decode cw = .ok i ∧ exec i s = .next t := by
  unfold runCode at h
  split at h
  · exact ⟨_, by assumption, h⟩
  · cases h

/-- Everything one rising edge can do, where it answers a next state: one line of the table of
spec/43_sequencer_and_handshake.md R130. -/
theorem clockEdge_cases {e : Edge} {s t : State} (h : clockEdge e s = .next t) :
    (e.rst = true ∧ t = s.resetEvent) ∨
    (e.rst = false ∧ s.phase = .idle ∧ e.reqValid = true ∧ runCode (.req e.req.word) s = .next t) ∨
    (e.rst = false ∧ s.phase = .idle ∧ e.reqValid = false ∧ t = s) ∨
    (e.rst = false ∧ s.phase = .run ∧ e.rest = false ∧ runCode (.uaddr s.uaddr) s = .next t) ∨
    (e.rst = false ∧ s.phase = .run ∧ e.rest = true ∧ t = s) ∨
    (e.rst = false ∧ s.phase = .resp ∧ e.rspReady = true ∧ t = s.take) ∨
    (e.rst = false ∧ s.phase = .resp ∧ e.rspReady = false ∧ t = s) := by
  unfold clockEdge at h
  cases hr : e.rst with
  | true => simp only [hr, if_true] at h; cases h; simp
  | false =>
    cases hp : s.phase with
    | idle => cases hv : e.reqValid <;> simp_all
    | run => cases hv : e.rest <;> simp_all
    | resp => cases hv : e.rspReady <;> simp_all

/-- A step is one rising edge with the next input sample, which it consumes. -/
theorem step_eq (s : State) : step s = clockEdge s.nextEdge s.popEdge := rfl

end Sys2Proof.Machine
end

