-- ==== Sys2Proof/Laws/PerInstr.lean ====
section
/-! SUPPORT. The family `TableMatch`: the code word of an instruction has the bits its row of
spec/opcode_table.json fixes, `bits &&& mask = match`. -/

namespace Sys2Proof.Laws.TableMatch

/-- The statement of the family. -/
def Statement (i : Instr) : Prop := (encode i).bits &&& i.row.mask = i.row.pattern

/-- Bit 136 of a request word is `var` and nothing else. -/
theorem encodeReq_and_top (var : BitVec 1) (sa da : Word) (sp dp : Half) (proto : Byte)
    (seed : Word) :
    (encodeReq var sa da sp dp proto seed).toNat &&& 2 ^ 136 = 2 ^ 136 * var.toNat := by
  have hbit : (encodeReq var sa da sp dp proto seed).toNat.testBit 136 = var.getLsbD 0 := by
    rw [BitVec.testBit_toNat]
    simp only [encodeReq, BitVec.getLsbD_append]
    rfl
  have hval : ∀ v : BitVec 1, (v.getLsbD 0).toNat = v.toNat := by decide
  rw [Nat.and_two_pow, hbit, hval, Nat.mul_comm]

theorem hasha (sa da : BitVec 32) (sp dp : BitVec 16) (proto : BitVec 8) (seed : BitVec 32) :
    Statement (.hasha sa da sp dp proto seed) := encodeReq_and_top 0#1 sa da sp dp proto seed
theorem hashb (sa da : BitVec 32) (sp dp : BitVec 16) (proto : BitVec 8) (seed : BitVec 32) :
    Statement (.hashb sa da sp dp proto seed) := encodeReq_and_top 1#1 sa da sp dp proto seed
theorem aInit : Statement .aInit := rfl
theorem aBlk0 : Statement .aBlk0 := rfl
theorem aBlk1 : Statement .aBlk1 := rfl
theorem aBlk2 : Statement .aBlk2 := rfl
theorem aTail : Statement .aTail := rfl
theorem aLen : Statement .aLen := rfl
theorem aFmix : Statement .aFmix := rfl
theorem aOut : Statement .aOut := rfl
theorem bInit : Statement .bInit := rfl
theorem bAbsorb : Statement .bAbsorb := rfl
theorem bMix : Statement .bMix := rfl
theorem bTail : Statement .bTail := rfl
theorem bFinal : Statement .bFinal := rfl
theorem bOut : Statement .bOut := rfl

end Sys2Proof.Laws.TableMatch
end

