-- ==== Sys2Proof/Laws/Run.lean ====
section
/-! SUPPORT. One lemma for each term in which claims speak of runs: what it is of one more step, so
that a proof about a run takes its first step without unfolding `Host.Core.run`. -/

namespace Sys2Proof.Machine

/-- No steps leave the state as it is. -/
@[simp] theorem run_zero (s : State) : run 0 s = .next s := (rfl)

/-- On any machine, a run whose first step answers a next state goes on from there. -/
theorem core_run_succ (M : Host.Core) {s t : M.State} (h : M.step s = .next t) (n : Nat) :
    M.run (n + 1) s = M.run n t := by simp only [Host.Core.run, h]

/-- The same of this machine. -/
theorem run_succ {s t : State} (h : step s = .next t) (n : Nat) : run (n + 1) s = run n t :=
  core_run_succ Sys2Proof.core h n

/-- What is seen of no steps: the outputs now. -/
@[simp] theorem observe_zero (s : State) : observe 0 s = [s.outputs] := (rfl)

/-- What is seen of one step more: the outputs now, and what is seen from the next state. -/
theorem observe_succ {s t : State} (h : step s = .next t) (n : Nat) :
    observe (n + 1) s = s.outputs :: observe n t := by simp [observe, h]

/-- No request is accepted in no steps. -/
@[simp] theorem acceptances_zero (s : State) : acceptances 0 s = [] := (rfl)

/-- The requests accepted in one step more. -/
theorem acceptances_succ {s t : State} (h : step s = .next t) (n : Nat) :
    acceptances (n + 1) s = s.accepting ++ acceptances n t := by simp [acceptances, h]

/-- No digest is delivered in no steps. -/
@[simp] theorem deliveries_zero (s : State) : deliveries 0 s = [] := (rfl)

/-- The digests delivered in one step more. -/
theorem deliveries_succ {s t : State} (h : step s = .next t) (n : Nat) :
    deliveries (n + 1) s = s.delivering ++ deliveries n t := by simp [deliveries, h]

end Sys2Proof.Machine
end

