-- ==== Sys2Proof/Tests/Slice0.lean ====
section
/-! SUPPORT. Tests. Expected values are the spec's own (95_test_vectors.md, and the worked examples
of the rules); each test is one step, one function value or one decoded word. The last section shows,
for every statement with hypotheses, a state and operands that meet all of them. -/

namespace Sys2Proof.Tests

open Sys2Proof.Machine

/-! ### Helpers -/

/-- The known-answer input KAT (95_test_vectors.md section 2.2), as Variant `v`. -/
def kat (v : BitVec 1) : Request :=
  ⟨v, 0xC0A80101#32, 0x08080808#32, 0x3039#16, 0x0050#16, 0x06#8, 0x12345678#32⟩

/-- The state just after ACCEPT of KAT, with given words in `H`, `A`, `B`, `C`. -/
def loaded (v : BitVec 1) (h a b c : Word) : State :=
  { State.reset.accept (kat v) with h := h, a := a, b := b, c := c }

/-- A field of the next state an outcome answers, if it answers one. -/
def look {α : Type} (f : State → α) : Host.Outcome State Fault Refusal → Option α
  | .next t => some (f t)
  | _ => none

/-- A state with a phase, a micro-address and input samples, the rest as after reset. -/
def at' (p : Phase) (v : BitVec 1) (u : BitVec 3) (es : List Edge) : State :=
  { State.reset with phase := p, var := v, ustep := u, edges := es }

/-! ### Checks that refuse ill-formed terms -/

/-- One operand too wide in each position (R68). -/
theorem test_wide_operand_refused :
    ([Line.hasha (2 ^ 32) 0 0 0 0 0, .hasha 0 (2 ^ 32) 0 0 0 0, .hasha 0 0 (2 ^ 16) 0 0 0,
      .hashb 0 0 0 (2 ^ 16) 0 0, .hashb 0 0 0 0 256 0, .hashb 0 0 0 0 0 (2 ^ 32)].map
        Line.wellFormed) = [false, false, false, false, false, false] := by decide

theorem test_widest_operands_accepted :
    Line.wellFormed (.hasha (2 ^ 32 - 1) (2 ^ 32 - 1) 65535 65535 255 (2 ^ 32 - 1)) = true := by
  decide

/-- The two micro-addresses that name nothing (R66). -/
theorem test_reserved_micro_addresses_refused :
    ([CodeWord.uaddr 0b1101, .uaddr 0b1110, .uaddr 0b1111].map CodeWord.wellFormed) =
      [true, false, false] := by decide

/-- Each check of the parameter record refuses a record that fails it alone. -/
theorem test_bad_params_refused :
    ([{ hardware with r1a := 0 }, { hardware with s2 := 32 },
      { hardware with mixRots := [4, 6, 8, 16, 19, 32] }, { hardware with finalRots := [0] },
      { hardware with mixRots := [4] }, { hardware with f1 := 2 }].map Params.wellFormed) =
      [false, false, false, false, false, false] := by decide

/-! ### Decoding: words written out from the tables of 30_encoding.md -/

/-- R60, HASHA KAT of section 2.2, digit group by digit group. -/
theorem test_decode_hasha_kat :
    decodeTableWord 144 0x0_12345678_06_0050_3039_08080808_C0A80101 =
      some (.hasha 0xC0A80101#32 0x08080808#32 0x3039#16 0x0050#16 0x06#8 0x12345678#32) := by
  decide +kernel

/-- R60, HASHB SEQ of section 2.2. -/
theorem test_decode_hashb_seq :
    decodeTableWord 144 0x1_00000000_0D_0C0B_0A09_08070605_04030201 =
      some (.hashb 0x04030201#32 0x08070605#32 0x0A09#16 0x0C0B#16 0x0D#8 0#32) := by
  decide +kernel

/-- R63, the sixteen micro-addresses in order. -/
theorem test_decode_micro_addresses :
    ((List.range 16).map fun w => decodeTableWord 8 w) =
      [some .aInit, some .aBlk0, some .aBlk1, some .aBlk2, some .aTail, some .aLen, some .aFmix,
        some .aOut, some .bInit, some .bAbsorb, some .bMix, some .bTail, some .bFinal, some .bOut,
        none, none] := by decide

theorem test_decode_no_such_word :
    (decodeTableWord 8 16, decodeTableWord 144 (2 ^ 137)) = (none, none) := by decide

/-- Encoding KAT gives the word section 2.2 lists. -/
theorem test_encode_kat :
    (kat 1).word = 0x1_12345678_06_0050_3039_08080808_C0A80101#137 := by decide

/-! ### The fetch -/

theorem test_fetch_micro_op_runs :
    look State.ustep (step (State.reset.withFetchWord 8 0b1011)) = some 4 := by decide

theorem test_fetch_request_is_accepted :
    look State.latched (step (State.reset.withFetchWord 144 (kat 1).word.toNat)) = some (kat 1) := by
  decide

/-! ### Primitives and the key (section 2.1, R80) -/

theorem test_rotate_and_shift :
    (rotl32 0x80000001#32 1, rotl32 0x12345678#32 15, rotl32 0x12345678#32 13,
      shr32 0x80000000#32 16, shr32 0xFFFFFFFF#32 13, zext32 0xFF#8) =
      (0x00000003#32, 0x2B3C091A#32, 0x8ACF0246#32, 0x00008000#32, 0x0007FFFF#32,
        0x000000FF#32) := by decide

theorem test_wrap :
    (add32 0xDEADBEFC#32 0x21524104#32, sub32 0#32 1#32, mul32 0xCC9E2D51#32 0x1B873593#32) =
      (0#32, 0xFFFFFFFF#32, 0xAEECCA83#32) := by decide

theorem test_serialization_kat :
    (loaded 0 0 0 0 0).mem.map Prod.snd = [0x01#8, 0x01#8, 0xA8#8, 0xC0#8, 0x08#8, 0x08#8, 0x08#8,
      0x08#8, 0x39#8, 0x30#8, 0x50#8, 0x00#8, 0x06#8] := by decide

theorem test_undefined_reads :
    (memRead (loaded 0 0 0 0 0).mem 1 4, memRead (loaded 0 0 0 0 0).mem 12 4,
      memRead (loaded 0 0 0 0 0).mem 0 2) = (none, none, none) := by decide

/-! ### Stage functions (sections 3.1 to 3.3, 4.2, 4.3) -/

theorem test_scr :
    (scr hardware 0x00000001#32, scr hardware 0xFFFFFFFF#32, scr hardware 0xC0A80101#32) =
      (0xC3539A5D#32, 0xBBEEB010#32, 0x2A55A4FB#32) := by decide

theorem test_absorb :
    (absorb hardware 0#32 1#32, absorb hardware 0xFFFFFFFF#32 0#32) =
      (0xE6550B64#32, 0xE6546B5F#32) := by decide

/-- R95 says that a zero block "still changes `H`"; by its own formula there is one value of `H` that
it does not change (log entry 21; found by trying every value outside Lean). -/
theorem test_zero_block_fixed_point :
    absorb hardware 0x29C2057C#32 (scr hardware 0) = 0x29C2057C#32 := by decide

theorem test_fmix32 :
    (fmix32 hardware 1#32, fmix32 hardware 0x80000000#32) = (0x514E28B7#32, 0x6D3C65A0#32) := by
  decide

theorem test_mixB :
    mixB hardware ⟨1#32, 2#32, 3#32⟩ = ⟨0x877D02A0#32, 0xCD175A8D#32, 0xE3FC5C22#32⟩ := by
  decide

theorem test_finalB :
    finalB hardware ⟨1#32, 2#32, 3#32⟩ = ⟨0xC0BBAC72#32, 0xD6302D23#32, 0x8CE5EF2B#32⟩ := by
  decide

/-- Section 4.6, KAT: the four combinations of the open parameters. -/
theorem test_hashB_parameters :
    ([hardware, { hardware with pBMix := 1 }, { hardware with finalRots := [14, 11, 25, 16, 4, 14, 24] },
      { hardware with pBMix := 1, finalRots := [14, 11, 25, 16, 4, 14, 24] }].map fun p =>
        hashB p 0xC0A80101#32 0x08080808#32 0x3039#16 0x0050#16 0x06#8 0x12345678#32) =
      [0x52622A75#32, 0xA588306B#32, 0xB196650B#32, 0xDA69F72B#32] := by decide

/-- Section 3.4: KAT, and HELLO, whose digest is a published value (section 3.6). -/
theorem test_hashA_digests :
    ([kat 0, ⟨0, 0x6C6C6548#32, 0x77202C6F#32, 0x726F#16, 0x646C#16, 0x21#8, 0x9747B28C#32⟩].map
      hashOf) = [0x549DED1B#32, 0x24884CBA#32] := by decide

/-! ### One micro-operation at a time: the KAT traces of sections 3.5 and 4.5 -/

theorem test_aInit : look (fun t => (t.h, t.ustep)) (exec .aInit (loaded 0 7 0 0 0)) =
    some (0x12345678#32, 1) := by decide
theorem test_aBlk0 : look State.h (exec .aBlk0 (loaded 0 0x12345678 0 0 0)) =
    some 0x1DE66EA0#32 := by decide
theorem test_aBlk1 : look State.h (exec .aBlk1 (loaded 0 0x1DE66EA0 0 0 0)) =
    some 0x2DDE99E8#32 := by decide
theorem test_aBlk2 : look State.h (exec .aBlk2 (loaded 0 0x2DDE99E8 0 0 0)) =
    some 0xD4B75029#32 := by decide
theorem test_aTail : look State.h (exec .aTail (loaded 0 0xD4B75029 0 0 0)) =
    some 0xFC78CE07#32 := by decide
theorem test_aLen : look State.h (exec .aLen (loaded 0 0xFC78CE07 0 0 0)) =
    some 0xFC78CE0A#32 := by decide
theorem test_aFmix : look State.h (exec .aFmix (loaded 0 0xFC78CE0A 0 0 0)) =
    some 0x549DED1B#32 := by decide
theorem test_aOut : look (fun t => (t.digest, t.ustep, t.phase))
    (exec .aOut (loaded 0 0x549DED1B 0 0 0)) = some (0x549DED1B#32, 0, .resp) := by decide
theorem test_bInit : look State.abc (exec .bInit (loaded 1 0 0 0 0)) =
    some ⟨0xF0E21574#32, 0xF0E21574#32, 0xF0E21574#32⟩ := by decide
theorem test_bAbsorb : look State.abc
    (exec .bAbsorb (loaded 1 0 0xF0E21574 0xF0E21574 0xF0E21574)) =
    some ⟨0xB18A1675#32, 0xF8EA1D7C#32, 0xF13245AD#32⟩ := by decide
theorem test_bMix : look (fun t => (t.abc, t.ustep))
    (exec .bMix (loaded 1 0 0xB18A1675 0xF8EA1D7C 0xF13245AD)) =
    some (⟨0xB18A1675#32, 0xF8EA1D7C#32, 0xF13245AD#32⟩, 3) := by decide
theorem test_bTail : look State.abc
    (exec .bTail (loaded 1 0 0xB18A1675 0xF8EA1D7C 0xF13245AD)) =
    some ⟨0xB18A167B#32, 0xF8EA1D7C#32, 0xF13245AD#32⟩ := by decide
theorem test_bFinal : look State.abc
    (exec .bFinal (loaded 1 0 0xB18A167B 0xF8EA1D7C 0xF13245AD)) =
    some ⟨0x1359D357#32, 0x7D71FD7D#32, 0x52622A75#32⟩ := by decide
theorem test_bOut : look (fun t => (t.digest, t.ustep, t.phase))
    (exec .bOut (loaded 1 0 1 2 0x52622A75)) = some (0x52622A75#32, 0, .resp) := by decide

/-! ### One edge at a time: traces T1 to T3 of section 7 -/

/-- T1 edge 2: ACCEPT. -/
theorem test_edge_accept : look (fun t => (t.latched, t.phase, t.ustep))
    (step (at' .idle 0 0 [Edge.offering (kat 0)])) = some (kat 0, .run, 0) := by decide

/-- T2 edge 11: TAKE and a waiting request coincide; only the TAKE happens (R147). -/
theorem test_edge_take_before_waiting_request : look (fun t => (t.phase, t.latched == kat 1))
    (step (at' .resp 0 0 [{ Edge.offering (kat 1) with rspReady := true }])) =
    some (.idle, false) := by decide

/-- T2 edge 8: the response is held. -/
theorem test_edge_hold : look State.phase (step (at' .resp 1 0 [Edge.offering (kat 0)])) =
    some .resp := by decide

/-- T3 edge 5: RESET wins over an offered request, in the middle of an operation. -/
theorem test_edge_reset : look (fun t => (t.phase, t.ustep, t.reqReady, t.rspValid))
    (step (at' .run 0 3 [{ Edge.offering (kat 1) with rst := true }])) =
    some (.idle, 0, true, false) := rfl

/-- U7: the sequencer is stuck at 1110. -/
theorem test_unreachable_is_refused : look State.phase (step (at' .run 1 6 [])) = none := by
  decide

/-! ### The assembler -/

/-- The line of program P1 (section 6), with its digest. -/
theorem test_parse_p1 :
    parseLine ['H', 'A', 'S', 'H', 'A', ' ', ' ', '0', 'x', 'C', '0', 'A', '8', '0', '1', '0', '1',
      ',', ' ', '8', ',', '1', '2', '3', '4', '5', ',', ' ', '8', '0', ' ', ',', ' ', '6', ',',
      ' ', '0', 'x', 'f', 'F', ' ', '-', '>', ' ', '0', 'x', '1', 'B'] =
      some (.hasha 0xC0A80101 8 12345 80 6 0xFF, some 0x1B) := by decide

theorem test_parse_refuses_other_text :
    (parseLine ['R', 'E', 'S', 'E', 'T'], parseLine ['H', 'A', 'S', 'H', 'C', ' ', '1'],
      parseLine ['H', 'A', 'S', 'H', 'A', ' ', '1', ',', '2']) =
      (some (.reset, none), none, none) := by decide

/-! ### Witnesses: every hypothesis of every statement is met together somewhere -/

theorem test_witness_EncodeOfDecode : decode (.uaddr 0b1001#4) = .ok .bAbsorb := rfl

theorem test_witness_wf_memory : (loaded 0 0 0 0 0).mem.wf = true := by decide

/-- The boundary amounts of the rotate and shift statements, and the widest narrower value. -/
theorem test_witness_amounts :
    (1 ≤ 1 ∧ 1 ≤ 31 ∧ 31 < 32) ∧ (1 ≤ 31 ∧ 31 ≤ 31 ∧ 0 < 32) ∧ 16 < 32 := by decide

theorem test_witness_SerializationIsInjective :
    ser 1 2 3 4 5 = ser 1 2 3 4 5 := rfl

theorem test_witness_HashADependsOnTheTailByte :
    hashA hardware 1 2 3 4 5 6 = hashA hardware 1 2 3 4 5 6 := rfl

theorem test_witness_LastTwoFinalizationStepsAreDead : hardware.finalRots.length = 6 := rfl

theorem test_witness_idle : State.reset.phase = .idle := rfl

theorem test_witness_busy : (at' .run 0 0 []).phase ≠ .idle ∧ (at' .resp 0 0 []).phase ≠ .idle := by
  decide

theorem test_witness_MicroOperationFrame :
    (requestOf .bTail, look (fun _ => ()) (exec .bTail State.reset)) = (none, some ()) := by
  decide

/-- The hypotheses of the clauses of `StepRunsTheDecodedInstruction` and
`StepAcceptsTheRequestOnThePorts`: in IDLE ... -/
theorem test_witness_step_idle :
    let s := at' .idle 0 0 [Edge.offering (kat 0)]
    s.nextEdge.rst = false ∧ s.phase = .idle ∧ s.nextEdge.reqValid = true ∧
      decodeReq s.nextEdge.req.word =
        .hasha 0xC0A80101#32 0x08080808#32 0x3039#16 0x0050#16 0x06#8 0x12345678#32 := by
  decide +kernel

/-- ... and in RUN. -/
theorem test_witness_step_run :
    let s := at' .run 1 4 [Edge.quiet]
    s.nextEdge.rst = false ∧ s.phase = .run ∧ s.nextEdge.rest = false ∧
      decode (.uaddr s.uaddr) = .ok .bFinal := ⟨rfl, rfl, rfl, rfl⟩

/-- The four clauses of `StepHoldsTakesAndIdles`. -/
theorem test_witness_holds_takes_idles :
    let i := at' .idle 0 0 []
    let r := at' .run 0 3 [{ Edge.quiet with rest := true }]
    let h := at' .resp 0 0 []
    let t := at' .resp 0 0 [Edge.taking]
    (i.nextEdge.rst = false ∧ i.phase = .idle ∧ i.nextEdge.reqValid = false) ∧
    (r.nextEdge.rst = false ∧ r.phase = .run ∧ r.nextEdge.rest = true) ∧
    (h.nextEdge.rst = false ∧ h.phase = .resp ∧ h.nextEdge.rspReady = false) ∧
    (t.nextEdge.rst = false ∧ t.phase = .resp ∧ t.nextEdge.rspReady = true) := by decide

theorem test_witness_reset_edge :
    (at' .resp 1 0 [Edge.resetting]).nextEdge.rst = true := rfl

/-- The three clauses of `InputsOfAnotherPhaseAreIgnored`. -/
theorem test_witness_inputs_ignored :
    Edge.resetting.rst = true ∧ (at' .run 0 0 []).phase ≠ .idle ∧
      (at' .idle 0 0 []).phase ≠ .resp := by decide

theorem test_witness_UnreachableMicroAddress :
    let s := at' .run 1 6 []
    let t := at' .run 1 7 []
    (s.nextEdge.rst = false ∧ s.nextEdge.rest = false ∧ s.phase = .run ∧ s.var = 1 ∧ s.ustep = 6) ∧
    (t.nextEdge.rst = false ∧ t.nextEdge.rest = false ∧ t.phase = .run ∧ t.var = 1 ∧
      t.ustep = 7) := by decide

/-- `OutputsFollowThePhase`: both sides of its clauses. -/
theorem test_witness_outputs :
    (at' .resp 0 0 []).phase = .resp ∧ (at' .idle 0 0 []).phase ≠ .resp := by decide

/-- `PhaseTransitions` and `LatchAndDigestAreStable`: a step that answers, with and without RESET. -/
theorem test_witness_steps_answer :
    step (at' .resp 0 0 [Edge.taking]) = .next (at' .idle 0 0 []) ∧
    step (at' .run 1 5 []) = .next (at' .resp 1 0 []) ∧
    step (at' .idle 0 0 [Edge.resetting]) = .next (at' .idle 0 0 []).resetEvent :=
  ⟨rfl, rfl, rfl⟩

/-- `ControlIsSequential`, at the last micro-operation of each variant and before it. -/
theorem test_witness_ControlIsSequential :
    ([at' .run 0 7 [], at' .run 1 5 [], at' .run 0 6 [], at' .run 1 4 []].all fun s =>
      s.admitted && decide (s.phase = .run) && !s.nextEdge.rst && !s.nextEdge.rest) = true := by
  decide

theorem test_witness_admitted : (at' .run 1 5 []).admitted = true := by decide

/-- A state in the middle of KAT that is on track (section 3.5), and the step it takes. -/
theorem test_witness_onTrack :
    ({ loaded 0 0xFC78CE0A 0 0 0 with ustep := 6 } : State).onTrack = true ∧
    look State.onTrack (step { loaded 0 0xFC78CE0A 0 0 0 with ustep := 6 }) = some true := by
  decide

/-- `AcceptedRequestReachesItsDigest`: a rest among the eight STEP edges. -/
theorem test_witness_AcceptedRequest :
    let es := { Edge.quiet with rest := true } :: List.replicate 8 Edge.quiet
    let s := at' .idle 0 0 (Edge.offering (kat 0) :: es)
    s.phase = .idle ∧ s.edges = Edge.offering (kat 0) :: es ∧
      (Edge.offering (kat 0)).rst = false ∧ (Edge.offering (kat 0)).reqValid = true ∧
      (∀ x ∈ es, x.rst = false ∧ x.rspReady = false) ∧
      stepsOf (Edge.offering (kat 0)).req.var ≤ (es.filter (fun x => !x.rest)).length := by
  decide

/-- `OperationTakesEightOrSixSteps`, with `k` at and below its bound. -/
theorem test_witness_OperationTakesSteps :
    let s := at' .idle 0 0 (Edge.offering (kat 1) :: List.replicate 6 Edge.quiet)
    s.phase = .idle ∧ s.edges = Edge.offering (kat 1) :: List.replicate 6 Edge.quiet ∧
      6 ≤ (if (kat 1).var = 0 then 8 else 6) ∧ 5 < (if (kat 1).var = 0 then 8 else 6) := by
  decide

/-- `DeliveriesAreTheDigestsOfTheAcceptances` and `ProgramOfRequestsIsAnsweredInOrder`. -/
theorem test_witness_program :
    let s := at' .idle 0 0 (transactions [kat 0, kat 1])
    s.phase = .idle ∧ s.edges = transactions [kat 0, kat 1] ∧ ∀ e ∈ s.edges, e.rst = false := by
  decide

/-- `OutputsDependOnTheInputsAlone`: two idle states with the same inputs and other contents. -/
theorem test_witness_noninterference :
    let s := at' .idle 0 0 [Edge.offering (kat 0)]
    let t := { loaded 1 1 2 3 4 with phase := .idle, ustep := 5, edges := [Edge.offering (kat 0)] }
    s.phase = .idle ∧ t.phase = .idle ∧ s.edges = t.edges ∧ s ≠ t := by decide

/-- `ResetAbandonsTheOperation`: after a RESET in RUN with nothing offered, nothing is accepted. -/
theorem test_witness_ResetAbandons :
    let s := at' .run 0 3 [Edge.resetting]
    s.nextEdge.rst = true ∧ step s = .next s.popEdge.resetEvent ∧
      acceptances 1 s.popEdge.resetEvent = [] := ⟨rfl, rfl, rfl⟩

/-- `AssemblerNeverTruncates`: lines that fit, with fields at their largest, and a number one too
large. -/
theorem test_witness_AssemblerNeverTruncates :
    assembleLine (.hasha 1 2 65535 4 255 6) = some (transaction ⟨0, 1, 2, 65535, 4, 255, 6⟩) ∧
    assembleLine (.hashb 4294967295 2 3 65535 5 6) =
      some (transaction ⟨1, 4294967295, 2, 3, 65535, 5, 6⟩) ∧
    assembleLine (.hasha 1 2 65536 4 255 6) = none ∧
    assembleLine (.hashb 1 2 3 4 256 6) = none ∧
    requestOfOperands 0 1 2 65535 4 255 6 = some ⟨0, 1, 2, 65535, 4, 255, 6⟩ := by decide

end Sys2Proof.Tests
end

/-! The arithmetic primitives of spec/00_scope.md R10 to R15, and the statements of that file about
them. -/

namespace Sys2Proof.Machine

/-! ### Each primitive on natural numbers or on bits -/

theorem add32_toNat (a b : Word) : (add32 a b).toNat = (a.toNat + b.toNat) % 2 ^ 32 :=
  BitVec.toNat_add a b

theorem sub32_toNat (a b : Word) :
    (sub32 a b).toNat =
      if b.toNat ≤ a.toNat then a.toNat - b.toNat else a.toNat + 2 ^ 32 - b.toNat := by
  have ha := a.isLt
  have hb := b.isLt
  rw [sub32, BitVec.toNat_sub]
  split <;> omega

theorem mul32_toNat (a b : Word) : (mul32 a b).toNat = a.toNat * b.toNat % 2 ^ 32 :=
  BitVec.toNat_mul a b

theorem xor32_getLsbD (a b : Word) (i : Nat) :
    (xor32 a b).getLsbD i = (a.getLsbD i != b.getLsbD i) := by
  rw [xor32, BitVec.getLsbD_xor, Bool.bne_eq_xor]

theorem shr32_toNat (x : Word) (n : Nat) : (shr32 x n).toNat = x.toNat / 2 ^ n := by
  rw [shr32, BitVec.toNat_ushiftRight, Nat.shiftRight_eq_div_pow]

theorem zext32_toNat {n : Nat} (v : BitVec n) (hn : n ≤ 32) : (zext32 v).toNat = v.toNat := by
  rw [zext32, BitVec.toNat_setWidth_of_le hn]

/-- The formula of R13 is the library's rotation, on every amount below the width. -/
theorem rotl32_eq_rotateLeft (x : Word) {n : Nat} (hn : n < 32) :
    rotl32 x n = x.rotateLeft n :=
  (BitVec.rotateLeft_eq_rotateLeftAux_of_lt hn).symm

theorem rotl32_toNat (x : Word) (n : Nat) :
    (rotl32 x n).toNat = (x.toNat * 2 ^ n % 2 ^ 32) ||| (x.toNat / 2 ^ (32 - n)) := by
  rw [rotl32, BitVec.toNat_or, BitVec.toNat_shiftLeft, BitVec.toNat_ushiftRight,
    Nat.shiftLeft_eq, Nat.shiftRight_eq_div_pow]

/-- A bit that stays below the top after the move comes from the left shift, one that does not from
the right shift. -/
theorem rotl32_getLsbD (x : Word) {n i : Nat} (hn : n < 32) (hi : i < 32) :
    (rotl32 x n).getLsbD ((i + n) % 32) = x.getLsbD i := by
  rw [rotl32_eq_rotateLeft x hn, BitVec.getLsbD_rotateLeft, Nat.mod_eq_of_lt hn]
  rcases Nat.lt_or_ge (i + n) 32 with hstay | hwrap
  · rw [Nat.mod_eq_of_lt hstay]
    simp [hstay]
  · rw [show (i + n) % 32 = i + n - 32 by omega]
    simp [show i + n - 32 < n by omega, show 32 - n + (i + n - 32) = i by omega]

/-! ### Multiplication by an odd constant -/

/-- An odd word is coprime to 2^32, so it has a multiplicative inverse. -/
theorem exists_mul32_eq_one {m : Word} (hm : m.toNat % 2 = 1) : ∃ n : Word, mul32 m n = 1#32 := by
  have hcoprime : Nat.Coprime m.toNat (2 ^ 32) :=
    (Nat.coprime_two_right.mpr (Nat.odd_iff.mpr hm)).pow_right 32
  obtain ⟨k, -, hk⟩ := Nat.exists_mul_mod_eq_one_of_coprime hcoprime (by decide)
  refine ⟨BitVec.ofNat 32 k, BitVec.eq_of_toNat_eq ?_⟩
  rw [mul32_toNat, BitVec.toNat_ofNat, Nat.mul_mod_mod, hk]
  rfl

/-- Multiplying by the inverse undoes multiplying by `m`, on either side. -/
theorem mul32_bijective {m : Word} (hm : m.toNat % 2 = 1) :
    Function.Bijective (fun x => mul32 x m) := by
  obtain ⟨n, hn⟩ := exists_mul32_eq_one hm
  have hmn : m * n = 1#32 := hn
  refine Function.bijective_iff_has_inverse.mpr ⟨fun x => mul32 x n, fun x => ?_, fun x => ?_⟩
  · show x * m * n = x
    rw [BitVec.mul_assoc, hmn, BitVec.mul_one]
  · show x * n * m = x
    rw [BitVec.mul_assoc, BitVec.mul_comm n m, hmn, BitVec.mul_one]

/-- The multipliers of R6 are odd (R11). -/
theorem hardware_multiplier_odd :
    ∀ m ∈ [hardware.c1, hardware.c2, hardware.m5, hardware.f1, hardware.f2], m.toNat % 2 = 1 := by
  simp [hardware]

/-! ### The statements about the primitives -/

/-- Settles O7: an odd multiplier has an inverse modulo 2^32. -/
theorem multiplicationByTheConstantsIsABijection :
    Obligations.MultiplicationByTheConstantsIsABijection :=
  ⟨mul32_toNat, fun m hm =>
    have hodd := hardware_multiplier_odd m hm
    ⟨hodd, mul32_bijective hodd⟩⟩

/-- Settles O9, by the library's rotation for the bits and by R13's formula for the number. -/
theorem rotateLeftMovesEveryBit : Obligations.RotateLeftMovesEveryBit :=
  ⟨fun x _ _ _ hn hi => rotl32_getLsbD x (Nat.lt_succ_of_le hn) hi,
    fun x n _ _ => rotl32_toNat x n, by decide⟩

/-- Settles O6, by the two primitives' values as numbers. -/
theorem additionAndSubtractionWrap : Obligations.AdditionAndSubtractionWrap :=
  fun a b => ⟨add32_toNat a b, sub32_toNat a b⟩

/-- Settles O8, by what each of the three primitives does to bits or to the number. -/
theorem exclusiveOrShiftAndExtension : Obligations.ExclusiveOrShiftAndExtension :=
  ⟨xor32_getLsbD, fun x n _ _ => shr32_toNat x n, ⟨rfl, rfl, rfl⟩,
    fun _ v hn => zext32_toNat v hn.le⟩

end Sys2Proof.Machine

/-! What the environment sees of a run depends on the inputs alone (spec/00_scope.md R3, R161). The
proof follows the fused block of R137, whose view of a state holds no working register: every edge
from a state on track, or from any IDLE state, takes the view where the fused block goes. -/

namespace Sys2Proof.Machine

/-! ### The fields of a request word (spec/30_encoding.md R60, R62) -/

section
variable (var : BitVec 1) (sa da : Word) (sp dp : Half) (proto : Byte) (seed : Word)

/-- A slice of a request word, at the width of the seven fields put together, so that the library's
lemmas about a slice of an appended word apply. -/
theorem encodeReq_extractLsb' (start len : Nat) :
    (encodeReq var sa da sp dp proto seed).extractLsb' start len =
      (var ++ seed ++ proto ++ dp ++ sp ++ da ++ sa :
        BitVec (1 + 32 + 8 + 16 + 16 + 32 + 32)).extractLsb' start len := rfl

/-- Bit 136 of a request word is `var` (R62). -/
theorem encodeReq_getLsbD_top :
    (encodeReq var sa da sp dp proto seed).getLsbD 136 = decide (var = 1) := by
  have htop : (encodeReq var sa da sp dp proto seed).getLsbD 136 = var.getLsbD 0 := by
    simp only [encodeReq, BitVec.getLsbD_append]
    rfl
  have hbit : ∀ v : BitVec 1, v.getLsbD 0 = decide (v = 1) := by decide
  rw [htop, hbit]

/-- Decoding a request word gives the request operation that `var` selects, on the operands. -/
theorem decodeReq_encodeReq :
    decodeReq (encodeReq var sa da sp dp proto seed) =
      if var = 1 then .hashb sa da sp dp proto seed else .hasha sa da sp dp proto seed := by
  simp only [decodeReq, encodeReq_getLsbD_top, decide_eq_true_eq, encodeReq_extractLsb',
    BitVec.extractLsb'_append_eq_right, BitVec.extractLsb'_append_eq_of_le, Nat.reduceLeDiff,
    Nat.reduceSub]

end

/-! ### ACCEPT -/

/-- A one-bit word has two values. -/
theorem bit_cases (v : BitVec 1) : v = 0 ∨ v = 1 := by revert v; decide

/-- The word of a request, taken from the ports in IDLE, is accepted with its own operands
(R62, R131). -/
theorem runCode_req_idle {s : State} (hp : s.phase = .idle) (r : Request) :
    runCode (.req r.word) s = .next (s.accept r) := by
  obtain ⟨var, sa, da, sp, dp, proto, seed⟩ := r
  simp only [runCode, decode, Request.word, decodeReq_encodeReq]
  rcases bit_cases var with rfl | rfl
  · exact State.offer_idle hp _
  · exact State.offer_idle hp _

/-! ### The micro-operations, each by the next state its rule gives -/

section
variable (s : State)

@[simp] theorem exec_aInit : exec .aInit s = .next (s.withH s.seed 1) := (rfl)

@[simp] theorem exec_aBlk0 :
    exec .aBlk0 s = .next (s.withH (absorb hardware s.h (scr hardware s.sa)) 2) := by
  show absorbBlock s 0 2 = _
  rw [absorbBlock, State.withBlock_zero]

@[simp] theorem exec_aBlk1 :
    exec .aBlk1 s = .next (s.withH (absorb hardware s.h (scr hardware s.da)) 3) := by
  show absorbBlock s 4 3 = _
  rw [absorbBlock, State.withBlock_four]

@[simp] theorem exec_aBlk2 :
    exec .aBlk2 s = .next (s.withH (absorb hardware s.h
      (scr hardware (s.dp ++ s.sp : BitVec (16 + 16)))) 4) := by
  show absorbBlock s 8 4 = _
  rw [absorbBlock, State.withBlock_eight]

@[simp] theorem exec_aTail :
    exec .aTail s = .next (s.withH (xor32 s.h (scr hardware (zext32 s.pr))) 5) := by
  show execATail s = _
  rw [execATail, State.withTail_eq]

@[simp] theorem exec_aLen : exec .aLen s = .next (s.withH (xor32 s.h keyLen) 6) := (rfl)

@[simp] theorem exec_aFmix : exec .aFmix s = .next (s.withH (fmix32 hardware s.h) 7) := (rfl)

@[simp] theorem exec_aOut : exec .aOut s = .next (s.deliver s.h) := (rfl)

@[simp] theorem exec_bInit :
    exec .bInit s = .next (s.withAbc ⟨initialValue hardware s.seed, initialValue hardware s.seed,
      initialValue hardware s.seed⟩ 1) := (rfl)

@[simp] theorem exec_bAbsorb :
    exec .bAbsorb s = .next (s.withAbc ⟨add32 s.abc.a s.sa, add32 s.abc.b s.da,
      add32 s.abc.c (s.dp ++ s.sp : BitVec (16 + 16))⟩ 2) := by
  show execBAbsorb s = _
  rw [execBAbsorb, State.withBlock_zero, State.withBlock_four, State.withBlock_eight]
  rfl

@[simp] theorem exec_bMix :
    exec .bMix s = .next (s.withAbc (mixTimes hardware hardware.pBMix s.abc) 3) := (rfl)

@[simp] theorem exec_bTail :
    exec .bTail s = .next (s.withAbc { s.abc with a := add32 s.abc.a (zext32 s.pr) } 4) := by
  show execBTail s = _
  rw [execBTail, State.withTail_eq]
  rfl

@[simp] theorem exec_bFinal :
    exec .bFinal s = .next (s.withAbc (finalB hardware s.abc) 5) := (rfl)

@[simp] theorem exec_bOut : exec .bOut s = .next (s.deliver s.c) := (rfl)

end

/-! ### What `onTrack` and `fused` say in each phase -/

section
variable {s : State}

theorem onTrack_idle (hp : s.phase = .idle) : s.onTrack = true ↔ s.ustep = 0 := by
  simp [State.onTrack, State.admitted, hp]

theorem onTrack_run_a (hp : s.phase = .run) (hv : s.var = 0) :
    s.onTrack = true ↔ ∀ w ∈ accumulatorAt s.latched s.ustep.toNat, s.h = w := by
  simp [State.onTrack, State.admitted, hp, hv, Option.all_eq_true]

theorem onTrack_run_b (hp : s.phase = .run) (hv : s.var = 1) :
    s.onTrack = true ↔
      s.ustep.toNat < 6 ∧ ∀ t ∈ wordsAt s.latched s.ustep.toNat, s.abc = t := by
  simp [State.onTrack, State.admitted, hp, hv, Option.all_eq_true]

theorem onTrack_resp (hp : s.phase = .resp) :
    s.onTrack = true ↔ s.ustep = 0 ∧ s.digest = hashOf s.latched := by
  simp [State.onTrack, State.admitted, hp]

theorem fused_idle (hp : s.phase = .idle) : s.fused = .idle := by simp [State.fused, hp]

theorem fused_run (hp : s.phase = .run) :
    s.fused = .busy s.latched (stepsOf s.var - s.ustep.toNat) := by simp [State.fused, hp]

theorem fused_resp (hp : s.phase = .resp) : s.fused = .offering s.digest := by
  simp [State.fused, hp]

end

/-- The output ports of a state are those of its fused view: no port shows a working register
(R29, R137). -/
theorem outputs_eq_fused_outputs (s : State) : s.outputs = s.fused.outputs := by
  cases hp : s.phase <;>
    simp [State.outputs, State.reqReady, State.rspValid, State.rspDigest, State.fused,
      FusedState.outputs, Except.toOption, hp]

theorem outputs_eq_of_fused_eq {s s' : State} (h : s.fused = s'.fused) :
    s.outputs = s'.outputs := by
  rw [outputs_eq_fused_outputs, h, outputs_eq_fused_outputs]

/-! ### One STEP event of an operation on its way (R132) -/

/-- A three-bit word has eight values. -/
theorem ustep_cases (u : BitVec 3) :
    u = 0 ∨ u = 1 ∨ u = 2 ∨ u = 3 ∨ u = 4 ∨ u = 5 ∨ u = 6 ∨ u = 7 := by revert u; decide

section
variable {s : State}

/-- A STEP executes the instruction that `VAR` and `USTEP` name. -/
theorem runCode_uaddr {v : BitVec 1} {u : BitVec 3} {i : Instr} (hv : s.var = v) (hu : s.ustep = u)
    (hi : decode (.uaddr (v ++ u)) = .ok i) : runCode (.uaddr s.uaddr) s = exec i s := by
  rw [runCode, State.uaddr, hv, hu, hi]

/-- A STEP of HASHA before the last computes the next value of the accumulator. -/
theorem runCode_uaddr_a (hv : s.var = 0) (hu : s.ustep ≠ 7)
    (hh : ∀ w ∈ accumulatorAt s.latched s.ustep.toNat, s.h = w) :
    ∃ h, runCode (.uaddr s.uaddr) s = .next (s.withH h (s.ustep + 1)) ∧
      accumulatorAt s.latched (s.ustep.toNat + 1) = some h := by
  rcases ustep_cases s.ustep with hk | hk | hk | hk | hk | hk | hk | hk <;> rw [hk] at hh ⊢
  · exact ⟨_, (runCode_uaddr hv hk rfl).trans (exec_aInit s), rfl⟩
  · exact ⟨_, (runCode_uaddr hv hk rfl).trans (exec_aBlk0 s), by rw [hh _ rfl]; rfl⟩
  · exact ⟨_, (runCode_uaddr hv hk rfl).trans (exec_aBlk1 s), by rw [hh _ rfl]; rfl⟩
  · exact ⟨_, (runCode_uaddr hv hk rfl).trans (exec_aBlk2 s), by rw [hh _ rfl]; rfl⟩
  · exact ⟨_, (runCode_uaddr hv hk rfl).trans (exec_aTail s), by rw [hh _ rfl]; rfl⟩
  · exact ⟨_, (runCode_uaddr hv hk rfl).trans (exec_aLen s), by rw [hh _ rfl]; rfl⟩
  · exact ⟨_, (runCode_uaddr hv hk rfl).trans (exec_aFmix s), by rw [hh _ rfl]; rfl⟩
  · exact absurd hk hu

/-- The last STEP of HASHA offers the digest of the latched operands (R101, R90). -/
theorem runCode_uaddr_a_last (hv : s.var = 0) (hu : s.ustep = 7)
    (hh : ∀ w ∈ accumulatorAt s.latched s.ustep.toNat, s.h = w) :
    runCode (.uaddr s.uaddr) s = .next (s.deliver (hashOf s.latched)) := by
  rw [hu] at hh
  have hdigest : s.h = hashOf s.latched := (hh _ rfl).trans (if_pos hv).symm
  rw [runCode_uaddr hv hu rfl, exec_aOut, hdigest]

/-- A STEP of HASHB before the last computes the next three words. -/
theorem runCode_uaddr_b (hv : s.var = 1) (hu : s.ustep.toNat < 5)
    (ht : ∀ t ∈ wordsAt s.latched s.ustep.toNat, s.abc = t) :
    ∃ t, runCode (.uaddr s.uaddr) s = .next (s.withAbc t (s.ustep + 1)) ∧
      wordsAt s.latched (s.ustep.toNat + 1) = some t := by
  rcases ustep_cases s.ustep with hk | hk | hk | hk | hk | hk | hk | hk <;> rw [hk] at hu ht ⊢
  · exact ⟨_, (runCode_uaddr hv hk rfl).trans (exec_bInit s), rfl⟩
  · exact ⟨_, (runCode_uaddr hv hk rfl).trans (exec_bAbsorb s), by rw [ht _ rfl]; rfl⟩
  · exact ⟨_, (runCode_uaddr hv hk rfl).trans (exec_bMix s), by rw [ht _ rfl]; rfl⟩
  · exact ⟨_, (runCode_uaddr hv hk rfl).trans (exec_bTail s), by rw [ht _ rfl]; rfl⟩
  · exact ⟨_, (runCode_uaddr hv hk rfl).trans (exec_bFinal s), by rw [ht _ rfl]; rfl⟩
  all_goals exact absurd hu (by decide)

/-- The last STEP of HASHB offers the digest of the latched operands (R118, R110). -/
theorem runCode_uaddr_b_last (hv : s.var = 1) (hu : s.ustep = 5)
    (ht : ∀ t ∈ wordsAt s.latched s.ustep.toNat, s.abc = t) :
    runCode (.uaddr s.uaddr) s = .next (s.deliver (hashOf s.latched)) := by
  rw [hu] at ht
  have hnot : s.latched.var ≠ 0 := fun h => absurd (hv.symm.trans h) (by decide)
  have hdigest : s.c = hashOf s.latched :=
    (congrArg Triple.c (ht _ rfl)).trans (if_neg hnot).symm
  rw [runCode_uaddr hv hu rfl, exec_bOut, hdigest]

end

/-! ### One rising edge against the fused block (R130, R137) -/

/-- What an edge `e` from `s` to `t` keeps: the inputs to come are untouched, `t` is on track unless
nothing happened, and its fused view is the one the fused block goes to. -/
structure FollowsFused (e : Edge) (s t : State) : Prop where
  edges : t.edges = s.edges
  onTrack : t.onTrack = true ∨ t = s
  fused : t.fused = fusedEdge e s.fused

section
variable {e : Edge} {s : State}

theorem resetEvent_followsFused (he : e.rst = true) : FollowsFused e s s.resetEvent where
  edges := s.resetEvent_edges
  onTrack := .inl ((onTrack_idle s.resetEvent_phase).mpr s.resetEvent_ustep)
  fused := by simp [fused_idle, fusedEdge, he]

/-- Right after ACCEPT no working register is claimed to hold anything. -/
theorem accept_onTrack (s : State) (r : Request) : (s.accept r).onTrack = true := by
  rcases bit_cases r.var with hv | hv
  · simp [onTrack_run_a, hv, accumulatorAt]
  · simp [onTrack_run_b, hv, wordsAt]

/-- In IDLE the edge accepts a request or changes nothing, whatever the registers hold. -/
theorem clockEdge_idle_followsFused (he : e.rst = false) (hp : s.phase = .idle) :
    ∃ t, clockEdge e s = .next t ∧ FollowsFused e s t := by
  cases hv : e.reqValid with
  | false =>
    exact ⟨s, by simp [clockEdge, he, hp, hv], rfl, .inr rfl, by simp [fused_idle, fusedEdge, *]⟩
  | true =>
    exact ⟨s.accept e.req, by simp [clockEdge, he, hp, hv, runCode_req_idle], rfl,
      .inl (accept_onTrack s e.req), by simp [fused_idle, fused_run, fusedEdge, *]⟩

/-- In RESP the edge takes the response or changes nothing. -/
theorem clockEdge_resp_followsFused (he : e.rst = false) (hp : s.phase = .resp)
    (hs : s.onTrack = true) : ∃ t, clockEdge e s = .next t ∧ FollowsFused e s t := by
  obtain ⟨hu, -⟩ := (onTrack_resp hp).mp hs
  cases hv : e.rspReady with
  | false =>
    exact ⟨s, by simp [clockEdge, he, hp, hv], rfl, .inr rfl, by simp [fused_resp, fusedEdge, *]⟩
  | true =>
    exact ⟨s.take, by simp [clockEdge, he, hp, hv], rfl, .inl ((onTrack_idle rfl).mpr hu),
      by simp [fused_idle, fused_resp, fusedEdge, *]⟩

/-- The last STEP event, at which the fused block computes the digest whole. -/
theorem deliver_followsFused (he : e.rst = false) (hr : e.rest = false) (hp : s.phase = .run)
    (hlast : stepsOf s.var - s.ustep.toNat ≤ 1) :
    FollowsFused e s (s.deliver (hashOf s.latched)) where
  edges := s.deliver_edges _
  onTrack := .inl ((onTrack_resp rfl).mpr ⟨rfl, rfl⟩)
  fused := by simp [fused_run, fused_resp, fusedEdge, *]

/-- An earlier STEP event, for which the fused block only counts: the request stays latched and
`USTEP` goes up by 1. -/
theorem advance_followsFused {t : State} (he : e.rst = false) (hr : e.rest = false)
    (hp : s.phase = .run) (hmore : s.ustep.toNat + 1 < stepsOf s.var) (hedges : t.edges = s.edges)
    (hpt : t.phase = .run) (hlatched : t.latched = s.latched)
    (hsucc : t.ustep.toNat = s.ustep.toNat + 1) (ht : t.onTrack = true) :
    FollowsFused e s t where
  edges := hedges
  onTrack := .inl ht
  fused := by
    have hvar : t.var = s.var := congrArg Request.var hlatched
    have hleft : ¬ stepsOf s.var - s.ustep.toNat ≤ 1 := by omega
    simp [fused_run, fusedEdge, *, Nat.sub_sub]

/-- A STEP event of HASHA. -/
theorem runCode_a_followsFused (he : e.rst = false) (hr : e.rest = false) (hp : s.phase = .run)
    (hv : s.var = 0) (hs : s.onTrack = true) :
    ∃ t, runCode (.uaddr s.uaddr) s = .next t ∧ FollowsFused e s t := by
  have hh := (onTrack_run_a hp hv).mp hs
  rcases eq_or_ne s.ustep 7 with hu | hu
  · have hlast : stepsOf s.var - s.ustep.toNat ≤ 1 := by rw [hv, hu]; decide
    exact ⟨_, runCode_uaddr_a_last hv hu hh, deliver_followsFused he hr hp hlast⟩
  · obtain ⟨h, hstep, hnext⟩ := runCode_uaddr_a hv hu hh
    have hlt : s.ustep.toNat < 7 := by bv_omega
    have hsucc : (s.ustep + 1).toNat = s.ustep.toNat + 1 := by bv_omega
    have hmore : s.ustep.toNat + 1 < stepsOf s.var := by rw [hv]; exact Nat.succ_lt_succ hlt
    have ht : (s.withH h (s.ustep + 1)).onTrack = true := by
      rw [onTrack_run_a (by simpa) (by simpa), State.withH_latched, State.withH_ustep, hsucc, hnext]
      exact fun w hw => Option.some.inj hw
    exact ⟨_, hstep, advance_followsFused he hr hp hmore rfl hp rfl hsucc ht⟩

/-- A STEP event of HASHB. -/
theorem runCode_b_followsFused (he : e.rst = false) (hr : e.rest = false) (hp : s.phase = .run)
    (hv : s.var = 1) (hs : s.onTrack = true) :
    ∃ t, runCode (.uaddr s.uaddr) s = .next t ∧ FollowsFused e s t := by
  obtain ⟨hadm, habc⟩ := (onTrack_run_b hp hv).mp hs
  rcases eq_or_ne s.ustep 5 with hu | hu
  · have hlast : stepsOf s.var - s.ustep.toNat ≤ 1 := by rw [hv, hu]; decide
    exact ⟨_, runCode_uaddr_b_last hv hu habc, deliver_followsFused he hr hp hlast⟩
  · have hlt : s.ustep.toNat < 5 := by bv_omega
    obtain ⟨w, hstep, hnext⟩ := runCode_uaddr_b hv hlt habc
    have hsucc : (s.ustep + 1).toNat = s.ustep.toNat + 1 := by bv_omega
    have hmore : s.ustep.toNat + 1 < stepsOf s.var := by rw [hv]; exact Nat.succ_lt_succ hlt
    have ht : (s.withAbc w (s.ustep + 1)).onTrack = true := by
      rw [onTrack_run_b (by simpa) (by simpa), State.withAbc_latched, State.withAbc_ustep, hsucc,
        hnext]
      exact ⟨Nat.succ_lt_succ hlt, fun w hw => Option.some.inj hw⟩
    exact ⟨_, hstep, advance_followsFused he hr hp hmore rfl hp rfl hsucc ht⟩

/-- In RUN the edge is a STEP event or a rest. -/
theorem clockEdge_run_followsFused (he : e.rst = false) (hp : s.phase = .run)
    (hs : s.onTrack = true) : ∃ t, clockEdge e s = .next t ∧ FollowsFused e s t := by
  cases hr : e.rest with
  | true =>
    exact ⟨s, by simp [clockEdge, he, hp, hr], rfl, .inr rfl, by simp [fused_run, fusedEdge, *]⟩
  | false =>
    have hclock : clockEdge e s = runCode (.uaddr s.uaddr) s := by simp [clockEdge, he, hp, hr]
    rw [hclock]
    rcases bit_cases s.var with hv | hv
    · exact runCode_a_followsFused he hr hp hv hs
    · exact runCode_b_followsFused he hr hp hv hs

end

/-- From a state on track, and from every IDLE state whatever its registers hold, an edge answers a
state that follows the fused block. -/
theorem clockEdge_followsFused (e : Edge) {s : State} (hs : s.phase = .idle ∨ s.onTrack = true) :
    ∃ t, clockEdge e s = .next t ∧ FollowsFused e s t := by
  cases he : e.rst with
  | true => exact ⟨s.resetEvent, by simp [clockEdge, he], resetEvent_followsFused he⟩
  | false =>
    cases hp : s.phase with
    | idle => exact clockEdge_idle_followsFused he hp
    | run => exact clockEdge_run_followsFused he hp (hs.resolve_left (by simp [hp]))
    | resp => exact clockEdge_resp_followsFused he hp (hs.resolve_left (by simp [hp]))

/-- The same of a step, which takes the edge with the next input sample consumed. -/
theorem step_followsFused {s : State} (hs : s.phase = .idle ∨ s.onTrack = true) :
    ∃ t, step s = .next t ∧ FollowsFused s.nextEdge s.popEdge t :=
  clockEdge_followsFused s.nextEdge (s := s.popEdge) hs

/-! ### What the environment sees of two runs -/

/-- Every state that `step_followsFused` speaks of is followed by another one. -/
theorem FollowsFused.live {e : Edge} {s t : State} (h : FollowsFused e s t)
    (hs : s.phase = .idle ∨ s.onTrack = true) : t.phase = .idle ∨ t.onTrack = true := by
  rcases h.onTrack with ht | rfl
  · exact .inr ht
  · exact hs

/-- Two states with the same fused view and the same inputs to come show the same outputs now and
after every further step: a step takes them to two such states again. -/
theorem observe_eq_of_fused_eq (n : Nat) {s s' : State}
    (hs : s.phase = .idle ∨ s.onTrack = true) (hs' : s'.phase = .idle ∨ s'.onTrack = true)
    (hfused : s.fused = s'.fused) (hedges : s.edges = s'.edges) : observe n s = observe n s' := by
  induction n generalizing s s' with
  | zero => rw [observe_zero, observe_zero, outputs_eq_of_fused_eq hfused]
  | succ n ih =>
    obtain ⟨t, hstep, ht⟩ := step_followsFused hs
    obtain ⟨t', hstep', ht'⟩ := step_followsFused hs'
    have hnext : s.nextEdge = s'.nextEdge := congrArg (List.headD · Edge.quiet) hedges
    have hfused_next : t.fused = t'.fused := by
      rw [ht.fused, ht'.fused, hnext]
      exact congrArg (fusedEdge s'.nextEdge) hfused
    have hedges_next : t.edges = t'.edges := by
      rw [ht.edges, ht'.edges]
      exact congrArg List.tail hedges
    rw [observe_succ hstep, observe_succ hstep', outputs_eq_of_fused_eq hfused,
      ih (ht.live hs) (ht'.live hs') hfused_next hedges_next]

/-- Settles O55: in IDLE the fused view holds no register, and it and the inputs to come fix all the
outputs to come. -/
theorem outputsDependOnTheInputsAlone : Obligations.OutputsDependOnTheInputsAlone := by
  intro n s s' hp hp' hedges
  exact observe_eq_of_fused_eq n (.inl hp) (.inl hp') ((fused_idle hp).trans (fused_idle hp').symm)
    hedges

end Sys2Proof.Machine

/-! What a step leaves unchanged and where the control state goes (spec/10_state.md R21 to R29,
R33). Two inversion lemmas carry it: what a micro-operation writes, and the event of R130 that a
step is. -/

namespace Sys2Proof.Machine

/-! ### The outputs (R29) -/

section
variable {s : State}

theorem State.reqReady_iff : s.reqReady = true ↔ s.phase = .idle := decide_eq_true_iff

theorem State.rspValid_iff : s.rspValid = true ↔ s.phase = .resp := decide_eq_true_iff

theorem State.rspDigest_of_resp (hp : s.phase = .resp) : s.rspDigest = .ok s.digest := by
  simp [State.rspDigest, hp]

theorem State.rspDigest_of_ne_resp (hp : s.phase ≠ .resp) :
    s.rspDigest = .error .digestNotOffered := by
  cases hs : s.phase with
  | resp => exact absurd hs hp
  | idle | run => simp [State.rspDigest, hs]

end

/-! ### What a micro-operation writes (R94 to R101, R112 to R118) -/

/-- The three kinds of write among the fourteen micro-operations: `H` by those of Variant A, the
three words by those of Variant B, the digest by the two OUT operations. -/
inductive MicroWrite (s : State) : Instr → State → Prop
  | accumulator {i : Instr}
      (hA : i ∈ [Instr.aInit, .aBlk0, .aBlk1, .aBlk2, .aTail, .aLen, .aFmix, .aOut])
      (hout : ¬ (i = .aOut ∨ i = .bOut)) (h : Word) (u : BitVec 3) : MicroWrite s i (s.withH h u)
  | words {i : Instr} (hB : i ∈ [Instr.bInit, .bAbsorb, .bMix, .bTail, .bFinal, .bOut])
      (hout : ¬ (i = .aOut ∨ i = .bOut)) (w : Triple) (u : BitVec 3) : MicroWrite s i (s.withAbc w u)
  | digest {i : Instr} (hout : i = .aOut ∨ i = .bOut) (d : Word) : MicroWrite s i (s.deliver d)

theorem variantA_not_variantB :
    ∀ i ∈ [Instr.aInit, .aBlk0, .aBlk1, .aBlk2, .aTail, .aLen, .aFmix, .aOut],
      i ∉ [Instr.bInit, .bAbsorb, .bMix, .bTail, .bFinal, .bOut] := by decide

section
variable {i : Instr} {s t : State}

/-- A micro-operation writes nothing but what its kind names. -/
theorem microWrite_of_exec (hi : requestOf i = none) (h : exec i s = .next t) :
    MicroWrite s i t := by
  cases i with
  | hasha | hashb => cases hi
  | aInit | aBlk0 | aBlk1 | aBlk2 | aTail | aLen | aFmix =>
    simp only [exec_aInit, exec_aBlk0, exec_aBlk1, exec_aBlk2, exec_aTail, exec_aLen, exec_aFmix,
      Host.Outcome.next.injEq] at h
    subst h
    exact .accumulator (by decide) (by decide) _ _
  | bInit | bAbsorb | bMix | bTail | bFinal =>
    simp only [exec_bInit, exec_bAbsorb, exec_bMix, exec_bTail, exec_bFinal,
      Host.Outcome.next.injEq] at h
    subst h
    exact .words (by decide) (by decide) _ _
  | aOut | bOut =>
    simp only [exec_aOut, exec_bOut, Host.Outcome.next.injEq] at h
    subst h
    exact .digest (by decide) _

/-- The request latch, and with it the key buffer, is as before (R21, R22, R44). -/
theorem MicroWrite.latched_eq (h : MicroWrite s i t) : t.latched = s.latched := by
  cases h <;> simp

theorem MicroWrite.mem_eq (h : MicroWrite s i t) : t.mem = s.mem := by
  cases h <;> simp

theorem MicroWrite.edges_eq (h : MicroWrite s i t) : t.edges = s.edges := by
  cases h <;> simp

theorem MicroWrite.draws_eq (h : MicroWrite s i t) : t.draws = s.draws := by
  cases h <;> simp

/-- No operation of Variant A writes `A`, `B` or `C` (R24). -/
theorem MicroWrite.abc_eq_of_variantA (h : MicroWrite s i t)
    (hA : i ∈ [Instr.aInit, .aBlk0, .aBlk1, .aBlk2, .aTail, .aLen, .aFmix, .aOut]) :
    t.a = s.a ∧ t.b = s.b ∧ t.c = s.c := by
  cases h with
  | accumulator | digest => simp
  | words hB => exact absurd hB (variantA_not_variantB i hA)

/-- No operation of Variant B writes `H` (R23). -/
theorem MicroWrite.h_eq_of_variantB (h : MicroWrite s i t)
    (hB : i ∈ [Instr.bInit, .bAbsorb, .bMix, .bTail, .bFinal, .bOut]) : t.h = s.h := by
  cases h with
  | words | digest => simp
  | accumulator hA => exact absurd hB (variantA_not_variantB i hA)

/-- `DIGEST` and `PHASE` are the OUT operations' alone to write (R25, R27). -/
theorem MicroWrite.digest_phase_eq_of_not_out (h : MicroWrite s i t)
    (hi : ¬ (i = .aOut ∨ i = .bOut)) : t.digest = s.digest ∧ t.phase = s.phase := by
  cases h with
  | accumulator | words => simp
  | digest hout => exact absurd hout hi

theorem MicroWrite.phase_eq_of_out (h : MicroWrite s i t) (hi : i = .aOut ∨ i = .bOut) :
    t.phase = .resp := by
  cases h with
  | digest => simp
  | accumulator _ hout | words _ hout => exact absurd hi hout

end

/-! ### The micro-operation a micro-address names (R63) -/

theorem requestOf_of_decode_uaddr {u : MicroAddr} {i : Instr} (h : decode (.uaddr u) = .ok i) :
    requestOf i = none := by
  rw [decode, decodeUaddr] at h
  split at h <;> cases h <;> rfl

/-- A.OUT and B.OUT stand at the last micro-address of each sequence. -/
theorem decode_uaddr_out : ∀ u : MicroAddr,
    (decode (.uaddr u) = .ok .aOut ↔ u = 0b0111#4) ∧
    (decode (.uaddr u) = .ok .bOut ↔ u = 0b1101#4) := by decide

theorem out_iff_uaddr {u : MicroAddr} {i : Instr} (h : decode (.uaddr u) = .ok i) :
    (i = .aOut ∨ i = .bOut) ↔ (u = 0b0111#4 ∨ u = 0b1101#4) := by
  rw [← (decode_uaddr_out u).1, ← (decode_uaddr_out u).2, h, Except.ok.injEq, Except.ok.injEq]

/-! ### The event a step is (R130) -/

/-- The lines of R130's table, each with the state it leads to. -/
inductive StepEvent (s : State) : State → Prop
  | reset (hr : s.nextEdge.rst = true) : StepEvent s s.popEdge.resetEvent
  | accept (hr : s.nextEdge.rst = false) (hp : s.phase = .idle)
      (hv : s.nextEdge.reqValid = true) : StepEvent s (s.popEdge.accept s.nextEdge.req)
  | idle (hr : s.nextEdge.rst = false) (hp : s.phase = .idle)
      (hv : s.nextEdge.reqValid = false) : StepEvent s s.popEdge
  | step (hr : s.nextEdge.rst = false) (hp : s.phase = .run) (hrest : s.nextEdge.rest = false)
      {i : Instr} (hi : decode (.uaddr s.uaddr) = .ok i) {t : State}
      (hw : MicroWrite s.popEdge i t) : StepEvent s t
  | rest (hr : s.nextEdge.rst = false) (hp : s.phase = .run) (hrest : s.nextEdge.rest = true) :
      StepEvent s s.popEdge
  | take (hr : s.nextEdge.rst = false) (hp : s.phase = .resp)
      (hv : s.nextEdge.rspReady = true) : StepEvent s s.popEdge.take
  | hold (hr : s.nextEdge.rst = false) (hp : s.phase = .resp)
      (hv : s.nextEdge.rspReady = false) : StepEvent s s.popEdge

section
variable {s t : State}

/-- A step that answers a next state is one of the events of R130. -/
theorem stepEvent_of_step (h : step s = .next t) : StepEvent s t := by
  rw [step_eq] at h
  rcases clockEdge_cases h with ⟨hr, rfl⟩ | ⟨hr, hp, hv, hcode⟩ | ⟨hr, hp, hv, rfl⟩ |
    ⟨hr, hp, hrest, hcode⟩ | ⟨hr, hp, hrest, rfl⟩ | ⟨hr, hp, hv, rfl⟩ | ⟨hr, hp, hv, rfl⟩
  · exact .reset hr
  · rw [runCode_req_idle hp] at hcode
    cases hcode
    exact .accept hr hp hv
  · exact .idle hr hp hv
  · obtain ⟨i, hi, hexec⟩ := runCode_next hcode
    exact .step hr hp hrest hi (microWrite_of_exec (requestOf_of_decode_uaddr hi) hexec)
  · exact .rest hr hp hrest
  · exact .take hr hp hv
  · exact .hold hr hp hv

/-- The phase after a STEP event is RESP exactly at the micro-address of an OUT operation. -/
theorem MicroWrite.phase_eq {u : MicroAddr} {i : Instr} (hw : MicroWrite s i t)
    (hi : decode (.uaddr u) = .ok i) :
    t.phase = if u = 0b0111#4 ∨ u = 0b1101#4 then .resp else s.phase := by
  rw [← if_congr (out_iff_uaddr hi) rfl rfl]
  split
  case isTrue hout => exact hw.phase_eq_of_out hout
  case isFalse hout => exact (hw.digest_phase_eq_of_not_out hout).2

/-- A write of `DIGEST` goes with the phase RESP. -/
theorem MicroWrite.digest_eq_of_phase_ne {i : Instr} (hw : MicroWrite s i t)
    (hp : t.phase ≠ .resp) : t.digest = s.digest :=
  (hw.digest_phase_eq_of_not_out fun hout => hp (hw.phase_eq_of_out hout)).1

end

/-! ### The statements of 10_state.md -/

/-- Settles O37, by the three kinds of write. -/
theorem microOperationFrame : Obligations.MicroOperationFrame := by
  intro i s t hi h
  have hw := microWrite_of_exec hi h
  exact ⟨hw.latched_eq, fun a => congrArg (Memory.byte · a) hw.mem_eq, hw.edges_eq, hw.draws_eq,
    hw.abc_eq_of_variantA, hw.h_eq_of_variantB,
    fun hA hB => hw.digest_phase_eq_of_not_out (not_or.mpr ⟨hA, hB⟩)⟩

/-- Settles O45, event by event. -/
theorem phaseTransitions : Obligations.PhaseTransitions := by
  intro s t h
  cases stepEvent_of_step h with
  | step hr hp hrest hi hw => simp [hr, hp, hrest, hw.phase_eq hi]
  | reset hr => simp [hr]
  | accept hr hp hv | idle hr hp hv | take hr hp hv | hold hr hp hv => simp [hr, hp, hv]
  | rest hr hp hrest => simp [hr, hp, hrest]

/-- Settles O47: of the events without RESET only ACCEPT writes the latch, and only a STEP event
that ends in RESP writes `DIGEST`. -/
theorem latchAndDigestAreStable : Obligations.LatchAndDigestAreStable := by
  intro s t h hrst
  cases stepEvent_of_step h with
  | reset hr => exact absurd hr (by simp [hrst])
  | accept hr hp hv => exact ⟨fun hnot => absurd ⟨hp, hv⟩ hnot, fun _ => by simp⟩
  | step hr hp hrest hi hw =>
    refine ⟨fun _ => hw.latched_eq.trans s.popEdge_latched, fun hnot => ?_⟩
    exact hw.digest_eq_of_phase_ne fun ht => hnot ⟨hp, ht⟩
  | idle | rest | take | hold => simp

/-- Settles O44, one output port at a time. -/
theorem outputsFollowThePhase : Obligations.OutputsFollowThePhase := fun _ =>
  ⟨State.reqReady_iff, State.rspValid_iff, State.rspDigest_of_resp, State.rspDigest_of_ne_resp⟩

/-- Settles O48: the outputs are those of the fused block's idle state. -/
theorem resetStateControlValues : Obligations.ResetStateControlValues :=
  ⟨rfl, rfl, outputs_eq_fused_outputs State.reset⟩

/-- Settles O49: in IDLE both invariants ask for `USTEP = 0` alone. -/
theorem resetStateSatisfiesTheInvariants : Obligations.ResetStateSatisfiesTheInvariants :=
  ⟨rfl, (onTrack_idle rfl).mpr rfl⟩

end Sys2Proof.Machine

/-! The key buffer as a memory, and a list of requests issued one after another (spec/20_memory.md
R40 to R46, R49). -/

namespace Sys2Proof.Machine

/-! ### A run of the fused block -/

/-- Where the fused block goes over a list of edges. -/
def fusedRun (es : List Edge) (f : FusedState) : FusedState := es.foldl (fun f e => fusedEdge e f) f

/-- The digest the fused block delivers at an edge, if it delivers one (R135). -/
def FusedState.delivering (e : Edge) : FusedState → List Word
  | .offering d => if !e.rst && e.rspReady then [d] else []
  | _ => []

/-- The digests the fused block delivers over a list of edges, in order. -/
def fusedDeliveries : List Edge → FusedState → List Word
  | [], _ => []
  | e :: es, f => f.delivering e ++ fusedDeliveries es (fusedEdge e f)

section
variable (e : Edge) (es es' : List Edge) (f : FusedState)

@[simp] theorem fusedRun_nil : fusedRun [] f = f := (rfl)

@[simp] theorem fusedRun_cons : fusedRun (e :: es) f = fusedRun es (fusedEdge e f) := (rfl)

@[simp] theorem fusedDeliveries_nil : fusedDeliveries [] f = [] := (rfl)

@[simp] theorem fusedDeliveries_cons :
    fusedDeliveries (e :: es) f = f.delivering e ++ fusedDeliveries es (fusedEdge e f) := (rfl)

theorem fusedRun_append : fusedRun (es ++ es') f = fusedRun es' (fusedRun es f) :=
  List.foldl_append

theorem fusedDeliveries_append :
    fusedDeliveries (es ++ es') f =
      fusedDeliveries es f ++ fusedDeliveries es' (fusedRun es f) := by
  induction es generalizing f with
  | nil => rfl
  | cons e es ih => simp [ih]

end

/-- What a state delivers at the next edge is what its fused view delivers there. -/
theorem delivering_eq_fused_delivering (s : State) :
    s.delivering = s.fused.delivering s.nextEdge := by
  cases hp : s.phase <;> simp [State.delivering, State.fused, FusedState.delivering, hp]

/-- Over all the inputs to come, the block answers a state whose fused view is where the fused block
goes, and delivers what the fused block delivers. -/
theorem run_edges_followsFused (es : List Edge) {s : State}
    (hs : s.phase = .idle ∨ s.onTrack = true) (hedges : s.edges = es) :
    ∃ t, run es.length s = .next t ∧ t.edges = [] ∧ t.fused = fusedRun es s.fused ∧
      deliveries es.length s = fusedDeliveries es s.fused := by
  induction es generalizing s with
  | nil => exact ⟨s, run_zero s, hedges, rfl, deliveries_zero s⟩
  | cons e es ih =>
    have hnext : s.nextEdge = e := by rw [State.nextEdge, hedges, List.headD_cons]
    obtain ⟨u, hstep, hu⟩ := step_followsFused hs
    have hfused : u.fused = fusedEdge e s.fused := hnext ▸ hu.fused
    have hrest : u.edges = es := by rw [hu.edges, State.popEdge_edges, hedges, List.tail_cons]
    obtain ⟨t, hrun, hused, hview, hdel⟩ := ih (hu.live hs) hrest
    refine ⟨t, (run_succ hstep _).trans hrun, hused, ?_, ?_⟩
    · rw [hview, hfused, fusedRun_cons]
    · rw [List.length_cons, deliveries_succ hstep, hdel, hfused, fusedDeliveries_cons,
        delivering_eq_fused_delivering, hnext]

/-! ### The transactions of a list of requests (R139) -/

section
variable (r : Request)

/-- `n + 1` quiet edges are the STEP events that a busy block still needs; it delivers nothing
meanwhile and offers the digest after the last. -/
theorem fused_quiet_of_busy (n : Nat) :
    fusedRun (List.replicate (n + 1) Edge.quiet) (.busy r (n + 1)) = .offering (hashOf r) ∧
    fusedDeliveries (List.replicate (n + 1) Edge.quiet) (.busy r (n + 1)) = [] := by
  induction n with
  | zero => exact ⟨rfl, rfl⟩
  | succ n ih =>
    have hedge : fusedEdge Edge.quiet (.busy r (n + 2)) = .busy r (n + 1) := by
      simp [fusedEdge, Edge.quiet]
    rw [List.replicate_succ, fusedRun_cons, fusedDeliveries_cons, hedge]
    exact ih

theorem stepsOf_eq_succ (var : BitVec 1) : ∃ n, stepsOf var = n + 1 := by
  rcases bit_cases var with rfl | rfl
  · exact ⟨7, rfl⟩
  · exact ⟨5, rfl⟩

theorem transaction_eq :
    transaction r =
      Edge.offering r :: (List.replicate (stepsOf r.var) Edge.quiet ++ [Edge.taking]) := (rfl)

/-- One transaction takes the idle block through ACCEPT, its STEP events and TAKE: it ends idle, with
the digest of the request delivered. -/
theorem fused_transaction :
    fusedRun (transaction r) .idle = .idle ∧
    fusedDeliveries (transaction r) .idle = [hashOf r] := by
  have haccept : fusedEdge (Edge.offering r) .idle = .busy r (stepsOf r.var) := (rfl)
  obtain ⟨n, hn⟩ := stepsOf_eq_succ r.var
  obtain ⟨hrun, hdel⟩ := fused_quiet_of_busy r n
  rw [transaction_eq, fusedRun_cons, fusedDeliveries_cons, haccept, fusedRun_append,
    fusedDeliveries_append, hn, hrun, hdel]
  exact ⟨rfl, rfl⟩

end

theorem fused_transactions (rs : List Request) :
    fusedRun (transactions rs) .idle = .idle ∧
    fusedDeliveries (transactions rs) .idle = rs.map hashOf := by
  induction rs with
  | nil => exact ⟨rfl, rfl⟩
  | cons r rs ih =>
    obtain ⟨hrun, hdel⟩ := fused_transaction r
    have hcons : transactions (r :: rs) = transaction r ++ transactions rs := List.flatMap_cons
    rw [hcons, fusedRun_append, fusedDeliveries_append, hrun, hdel]
    exact ⟨ih.1, congrArg (hashOf r :: ·) ih.2⟩

/-- The fused view tells the phase. -/
theorem phase_eq_idle_of_fused {s : State} (h : s.fused = .idle) : s.phase = .idle := by
  cases hp : s.phase with
  | idle => rfl
  | run => exact absurd ((fused_run hp).symm.trans h) (by simp)
  | resp => exact absurd ((fused_resp hp).symm.trans h) (by simp)

/-- Settles O59: the block follows the fused block, which answers one transaction after another. -/
theorem programOfRequestsIsAnsweredInOrder : Obligations.ProgramOfRequestsIsAnsweredInOrder := by
  intro rs s hp hedges
  obtain ⟨t, hrun, hused, hview, hdel⟩ := run_edges_followsFused _ (.inl hp) hedges
  obtain ⟨hidle, hdigests⟩ := fused_transactions rs
  rw [fused_idle hp] at hview hdel
  exact ⟨hdel.trans hdigests, t, hrun, phase_eq_idle_of_fused (hview.trans hidle), hused⟩

/-! ### Memories in canonical form (R40, R42) -/

section
variable {m : Memory}

/-- A memory in canonical form holds a byte at the addresses 0 to 12 and at no other. -/
theorem Memory.byte_isSome_iff (hm : m.wf = true) (a : Nat) : (m.byte a).isSome = true ↔ a < 13 := by
  have haddrs : m.map Prod.fst = List.range 13 := of_decide_eq_true hm
  calc (m.byte a).isSome = true
      ↔ a ∈ m.map Prod.fst := by simp [Memory.byte, List.lookup_isSome_iff]
    _ ↔ a < 13 := by rw [haddrs, List.mem_range]

theorem Memory.exists_byte (hm : m.wf = true) {a : Nat} (ha : a < 13) : ∃ k, m.byte a = some k :=
  Option.isSome_iff_exists.mp ((Memory.byte_isSome_iff hm a).mpr ha)

/-! ### `MemRead` (R43, R46) -/

theorem memReadDefined_iff (addr n : Nat) :
    memReadDefined addr n = true ↔
      (n = 4 ∧ (addr = 0 ∨ addr = 4 ∨ addr = 8)) ∨ (n = 1 ∧ addr = 12) := by
  simp [memReadDefined]

theorem memRead_four {addr : Nat} (h : addr = 0 ∨ addr = 4 ∨ addr = 8) :
    memRead m addr 4 = m.word addr :=
  if_pos ((memReadDefined_iff addr 4).mpr (.inl ⟨rfl, h⟩))

theorem memRead_one : memRead m 12 1 = m.byte 12 := (rfl)

theorem Memory.word_eq {a : Nat} {k0 k1 k2 k3 : Byte} (h0 : m.byte a = some k0)
    (h1 : m.byte (a + 1) = some k1) (h2 : m.byte (a + 2) = some k2)
    (h3 : m.byte (a + 3) = some k3) :
    m.word a = some (k3 ++ k2 ++ k1 ++ k0 : BitVec (8 + 8 + 8 + 8)) := by
  simp only [Memory.word, h0, h1, h2, h3]

/-- A byte put below a word counts the word 256 times. -/
theorem append_byte_toNat {n : Nat} (x : BitVec n) (k : Byte) :
    (x ++ k).toNat = 256 * x.toNat + k.toNat := by
  rw [BitVec.toNat_append, ← Nat.shiftLeft_add_eq_or_of_lt k.isLt, Nat.shiftLeft_eq, Nat.mul_comm]

/-- Four bytes as one number, `k0` the least significant (R41). -/
theorem four_bytes_toNat (k0 k1 k2 k3 : Byte) :
    (k3 ++ k2 ++ k1 ++ k0 : BitVec (8 + 8 + 8 + 8)).toNat =
      k0.toNat + 256 * k1.toNat + 65536 * k2.toNat + 16777216 * k3.toNat := by
  rw [append_byte_toNat, append_byte_toNat, append_byte_toNat]
  omega

/-- A four-byte read of a memory in canonical form is the little-endian number of its bytes. -/
theorem memRead_four_littleEndian (hm : m.wf = true) {addr : Nat}
    (h : addr = 0 ∨ addr = 4 ∨ addr = 8) :
    ∃ k0 k1 k2 k3 : Byte, m.byte addr = some k0 ∧ m.byte (addr + 1) = some k1 ∧
      m.byte (addr + 2) = some k2 ∧ m.byte (addr + 3) = some k3 ∧
      (memRead m addr 4).map BitVec.toNat = some (k0.toNat + 256 * k1.toNat +
        65536 * k2.toNat + 16777216 * k3.toNat) := by
  obtain ⟨k0, h0⟩ := Memory.exists_byte hm (a := addr) (by omega)
  obtain ⟨k1, h1⟩ := Memory.exists_byte hm (a := addr + 1) (by omega)
  obtain ⟨k2, h2⟩ := Memory.exists_byte hm (a := addr + 2) (by omega)
  obtain ⟨k3, h3⟩ := Memory.exists_byte hm (a := addr + 3) (by omega)
  refine ⟨k0, k1, k2, k3, h0, h1, h2, h3, ?_⟩
  rw [memRead_four h, Memory.word_eq h0 h1 h2 h3, Option.map_some, four_bytes_toNat]

/-- On a memory in canonical form `MemRead` answers exactly where R43 defines it. -/
theorem memRead_isSome_iff (hm : m.wf = true) (addr n : Nat) :
    (memRead m addr n).isSome = true ↔ memReadDefined addr n = true := by
  refine ⟨fun h => ?_, fun h => ?_⟩
  · by_contra hundef
    rw [memRead_undefined (Bool.eq_false_of_not_eq_true hundef)] at h
    exact absurd h (by simp)
  · rcases (memReadDefined_iff addr n).mp h with ⟨rfl, haddr⟩ | ⟨rfl, rfl⟩
    · obtain ⟨_, _, _, _, -, -, -, -, hread⟩ := memRead_four_littleEndian hm haddr
      rw [← Option.isSome_map, hread, Option.isSome_some]
    · rw [memRead_one]
      exact (Memory.byte_isSome_iff hm 12).mpr (by decide)

end

/-! ### The statements of 20_memory.md about the key -/

/-- Settles O10: the map lists addresses 0 to 12, and no others exist in canonical form. -/
theorem keyAddressMap : Obligations.KeyAddressMap := by
  intro sa da sp dp pr
  refine ⟨rfl, fun a ha => ?_⟩
  have hnone := mt (Memory.byte_isSome_iff (ser_wf sa da sp dp pr) a).mp (Nat.not_lt.mpr ha)
  exact Option.not_isSome_iff_eq_none.mp hnone

/-- Settles O12, from the bytes that a memory in canonical form holds. -/
theorem memReadIsLittleEndianOnFourPairs : Obligations.MemReadIsLittleEndianOnFourPairs := by
  intro m hm
  obtain ⟨k12, hk⟩ := Memory.exists_byte hm (a := 12) (by decide)
  exact ⟨fun addr n => (memRead_isSome_iff hm addr n).trans (memReadDefined_iff addr n),
    fun _ haddr => memRead_four_littleEndian hm haddr,
    k12, hk, memRead_one.trans hk, zext32_toNat k12 (by decide)⟩

end Sys2Proof.Machine

/-! The request word, the micro-address and the assembler's lines (spec/30_encoding.md). A request
and its word determine each other: the word's slices are the request's fields, and the fields put
together are the word. -/

namespace Sys2Proof.Machine

/-! ### A request and its word (R60, R62, R65) -/

/-- The fields of a request word, by the slices of R60 (R64). -/
def requestOfWord (w : ReqWord) : Request where
  var := w.extractLsb' 136 1
  sa := w.extractLsb' 0 32
  da := w.extractLsb' 32 32
  sp := w.extractLsb' 64 16
  dp := w.extractLsb' 80 16
  proto := w.extractLsb' 96 8
  seed := w.extractLsb' 104 32

/-- Adjacent slices joined, from bit 136 down to bit 0, leave no bit out. -/
theorem word_requestOfWord (w : ReqWord) : (requestOfWord w).word = w := by
  have hjoin : (w.extractLsb' 136 1 ++ w.extractLsb' 104 32 ++ w.extractLsb' 96 8 ++
      w.extractLsb' 80 16 ++ w.extractLsb' 64 16 ++ w.extractLsb' 32 32 ++ w.extractLsb' 0 32 :
      BitVec (1 + 32 + 8 + 16 + 16 + 32 + 32)) = w.extractLsb' 0 137 := by
    iterate 6 rw [BitVec.extractLsb'_append_extractLsb'_eq_extractLsb']
    all_goals rfl
  exact hjoin.trans BitVec.extractLsb'_eq_self

theorem requestOfWord_word (r : Request) : requestOfWord r.word = r := by
  simp only [requestOfWord, Request.word, encodeReq_extractLsb',
    BitVec.extractLsb'_append_eq_left, BitVec.extractLsb'_append_eq_right,
    BitVec.extractLsb'_append_eq_of_le, Nat.reduceLeDiff, Nat.reduceSub]

/-- The decoder reads the operands of `requestOfWord`, and bit 136 for the operation. -/
theorem decodeReq_eq (w : ReqWord) {r : Request} (hr : requestOfWord w = r) :
    decodeReq w = if w.getLsbD 136 then .hashb r.sa r.da r.sp r.dp r.proto r.seed
      else .hasha r.sa r.da r.sp r.dp r.proto r.seed := hr ▸ rfl

/-- Encoding what a request word decodes to gives the word back. -/
theorem encode_decodeReq (w : ReqWord) : encode (decodeReq w) = .req w := by
  obtain ⟨⟨var, sa, da, sp, dp, proto, seed⟩, rfl⟩ : ∃ r : Request, r.word = w :=
    ⟨_, word_requestOfWord w⟩
  rw [Request.word, decodeReq_encodeReq]
  rcases bit_cases var with rfl | rfl
  · rfl
  · rfl

/-! ### The request word as a number -/

theorem append_toNat {m n : Nat} (x : BitVec m) (y : BitVec n) :
    (x ++ y).toNat = 2 ^ n * x.toNat + y.toNat := by
  rw [BitVec.toNat_append, ← Nat.shiftLeft_add_eq_or_of_lt y.isLt, Nat.shiftLeft_eq, Nat.mul_comm]

/-- R60's integer, the most significant field first. -/
theorem word_toNat (r : Request) :
    r.word.toNat = r.sa.toNat + 2 ^ 32 * r.da.toNat + 2 ^ 64 * r.sp.toNat + 2 ^ 80 * r.dp.toNat +
      2 ^ 96 * r.proto.toNat + 2 ^ 104 * r.seed.toNat + 2 ^ 136 * r.var.toNat := by
  have hword : r.word.toNat = (r.var ++ r.seed ++ r.proto ++ r.dp ++ r.sp ++ r.da ++ r.sa :
      BitVec (1 + 32 + 8 + 16 + 16 + 32 + 32)).toNat := rfl
  simp only [hword, append_toNat]
  ring

/-! ### The key bytes in the request word -/

theorem extractLsb'_extractLsb' {w : Nat} (x : BitVec w) {start len start' len' : Nat}
    (h : start' + len' ≤ len) :
    (x.extractLsb' start len).extractLsb' start' len' = x.extractLsb' (start + start') len' := by
  apply BitVec.eq_of_getLsbD_eq
  intro i hi
  have hlen : start' + i < len := by omega
  simp only [BitVec.getLsbD_extractLsb', hi, hlen, Nat.add_assoc, decide_true, Bool.true_and]

/-- The serialized key of a word's operands is the word's low 104 bits, byte by byte (R60). -/
theorem ser_requestOfWord (w : ReqWord) {r : Request} (hr : requestOfWord w = r) :
    ser r.sa r.da r.sp r.dp r.proto =
      (List.range 13).map (fun i => (i, w.extractLsb' (8 * i) 8)) := by
  subst hr
  simp only [ser, requestOfWord, extractLsb'_extractLsb', Nat.reduceAdd, Nat.reduceLeDiff]
  rfl

theorem ser_byte_eq_word_slice (r : Request) {i : Nat} (hi : i < 13) :
    (ser r.sa r.da r.sp r.dp r.proto).byte i = some (r.word.extractLsb' (8 * i) 8) := by
  rw [ser_requestOfWord r.word (requestOfWord_word r), Memory.byte]
  exact List.lookup_graph _ (List.mem_range.mpr hi)

/-! ### Micro-addresses (R63, R66) -/

/-- Each micro-operation has one micro-address. -/
theorem encode_of_decode_uaddr {u : MicroAddr} {i : Instr} (h : decode (.uaddr u) = .ok i) :
    encode i = .uaddr u := by
  rw [decode, decodeUaddr] at h
  split at h <;> cases h
  all_goals
    rename_i hu
    exact congrArg CodeWord.uaddr (BitVec.eq_of_toNat_eq hu.symm)

/-- The two micro-addresses above 1101 name nothing. -/
theorem decode_uaddr_unreachable : ∀ u : MicroAddr, 14 ≤ u.toNat →
    decode (.uaddr u) = .error (.unreachableMicroAddress u) := by decide

theorem uaddr_unreachable {s : State} (hv : s.var = 1) (hu : s.ustep = 6 ∨ s.ustep = 7) :
    14 ≤ s.uaddr.toNat := by
  rw [State.uaddr, hv]
  rcases hu with hu | hu <;> rw [hu] <;> decide

/-- In RUN an edge at which the block does not rest runs the micro-address (R130, R132). -/
theorem clockEdge_run {e : Edge} {s : State} (he : e.rst = false) (hr : e.rest = false)
    (hp : s.phase = .run) : clockEdge e s = runCode (.uaddr s.uaddr) s := by
  simp [clockEdge, he, hr, hp]

theorem runCode_refused {cw : CodeWord} {e : DecodeError} (h : decode cw = .error e) (s : State) :
    runCode cw s = .refused (DecodeError.refusal e) := by
  rw [runCode, h]

/-! ### The assembler's requests (R68) -/

section
variable {var : BitVec 1} {sa da sp dp proto seed : Nat}

/-- No request, and so no transaction, is made of the numbers exactly when one does not fit. -/
theorem map_requestOfOperands_eq_none_iff {α : Type} (f : Request → α) :
    (requestOfOperands var sa da sp dp proto seed).map f = none ↔
      ¬ (sa < 2 ^ 32 ∧ da < 2 ^ 32 ∧ sp < 2 ^ 16 ∧ dp < 2 ^ 16 ∧ proto < 2 ^ 8 ∧
        seed < 2 ^ 32) := by
  rw [← operandsFit_iff, Option.map_eq_none_iff]
  cases hfit : operandsFit sa da sp dp proto seed with
  | false => simp [requestOfOperands_none var hfit]
  | true => simp [requestOfOperands_some var hfit]

/-- A request that is made holds the numbers themselves: a number that fits is its own remainder. -/
theorem requestOfOperands_exact {r : Request}
    (h : requestOfOperands var sa da sp dp proto seed = some r) :
    r.var = var ∧ r.sa.toNat = sa ∧ r.da.toNat = da ∧ r.sp.toNat = sp ∧ r.dp.toNat = dp ∧
      r.proto.toNat = proto ∧ r.seed.toNat = seed := by
  cases hfit : operandsFit sa da sp dp proto seed with
  | false => rw [requestOfOperands_none var hfit] at h; cases h
  | true =>
    obtain ⟨hsa, hda, hsp, hdp, hproto, hseed⟩ := (operandsFit_iff ..).mp hfit
    rw [requestOfOperands_some var hfit] at h
    cases h
    exact ⟨rfl, Nat.mod_eq_of_lt hsa, Nat.mod_eq_of_lt hda, Nat.mod_eq_of_lt hsp,
      Nat.mod_eq_of_lt hdp, Nat.mod_eq_of_lt hproto, Nat.mod_eq_of_lt hseed⟩

/-- The samples made of a request line begin with its request on the ports. -/
theorem transaction_of_operands {es : List Edge}
    (h : (requestOfOperands var sa da sp dp proto seed).map transaction = some es) :
    ∃ r : Request, es = transaction r ∧
      es.head?.map (fun e => (e.reqValid, e.req)) = some (true, r) ∧ r.var = var ∧
      r.sa.toNat = sa ∧ r.da.toNat = da ∧ r.sp.toNat = sp ∧ r.dp.toNat = dp ∧
      r.proto.toNat = proto ∧ r.seed.toNat = seed := by
  obtain ⟨r, hr, rfl⟩ := Option.map_eq_some_iff.mp h
  exact ⟨r, rfl, by rw [transaction_head]; rfl, requestOfOperands_exact hr⟩

end

/-! ### The statements of 30_encoding.md -/

/-- Settles O1: a request operation by the slices of its word, a micro-operation by the table. -/
theorem decodeOfEncodeIsTheInstruction : Obligations.DecodeOfEncodeIsTheInstruction := by
  intro i
  cases i with
  | hasha sa da sp dp proto seed => exact congrArg Except.ok (decodeReq_encodeReq 0 ..)
  | hashb sa da sp dp proto seed => exact congrArg Except.ok (decodeReq_encodeReq 1 ..)
  | _ => rfl

/-- Settles O2, for a request word by its slices joined again, for a micro-address by the table. -/
theorem encodeOfDecodeIsTheWord : Obligations.EncodeOfDecodeIsTheWord := by
  intro cw i h
  cases cw with
  | req w =>
    cases h
    exact encode_decodeReq w
  | uaddr u => exact encode_of_decode_uaddr h

/-- Settles O3, by the word as a number and by the key as the word's low bytes. -/
theorem requestWordLayout : Obligations.RequestWordLayout := fun r =>
  ⟨word_toNat r, fun _ hi => ser_byte_eq_word_slice r hi⟩

/-- Settles O4: the request is the word's own slices. -/
theorem everyRequestWordDecodes : Obligations.EveryRequestWordDecodes := by
  intro w
  have hdecode : decode (.req w) = .ok _ := congrArg Except.ok (decodeReq_eq w rfl)
  refine ⟨requestOfWord w, word_requestOfWord w, fun hbit => ?_, fun hbit => ?_⟩
  · exact hdecode.trans (by rw [hbit]; rfl)
  · exact hdecode.trans (by rw [hbit]; rfl)

/-- Settles O5: the two request words are the encodings of the operands listed beside them. -/
theorem listedCodeWordsDecode : Obligations.ListedCodeWordsDecode :=
  ⟨rfl, decode_uaddr_unreachable _ (by decide), decode_uaddr_unreachable _ (by decide),
    decodeOfEncodeIsTheInstruction
      (.hasha 0xC0A80101#32 0x08080808#32 0x3039#16 0x0050#16 0x06#8 0x12345678#32),
    decodeOfEncodeIsTheInstruction
      (.hashb 0x04030201#32 0x08070605#32 0x0A09#16 0x0C0B#16 0x0D#8 0x00000000#32)⟩

/-- Settles O43: the edge runs a micro-address that decodes to nothing. -/
theorem unreachableMicroAddressIsRefused : Obligations.UnreachableMicroAddressIsRefused := by
  intro s he hr hp hv hu
  rw [step_eq, clockEdge_run he hr (by rwa [State.popEdge_phase]), State.popEdge_uaddr]
  exact runCode_refused (decode_uaddr_unreachable _ (uaddr_unreachable hv hu)) _

/-- Settles O58: a line of either variant is assembled through the request of its numbers. -/
theorem assemblerNeverTruncates : Obligations.AssemblerNeverTruncates := by
  intro sa da sp dp proto seed
  rw [assembleLine_hasha, assembleLine_hashb]
  exact ⟨map_requestOfOperands_eq_none_iff transaction,
    map_requestOfOperands_eq_none_iff transaction,
    fun _ h => transaction_of_operands h, fun _ h => transaction_of_operands h,
    fun _ _ h => requestOfOperands_exact h⟩

end Sys2Proof.Machine

/-! The serialization of a FlowKey (spec/40_key_serialization.md). The reads of the serialized key
give its fields, so that it has no other fields; and any thirteen bytes are the bytes of some
fields, put together block by block. -/

namespace Sys2Proof.Machine

/-! ### The word view of the key (R82) -/

section
variable (sa da : Word) (sp dp : Half) (pr : Byte)

theorem memRead_ser_zero : memRead (ser sa da sp dp pr) 0 4 = some sa :=
  calc memRead (ser sa da sp dp pr) 0 4
      = (ser sa da sp dp pr).word 0 := memRead_four (.inl rfl)
    _ = some _ := Memory.word_eq rfl rfl rfl rfl
    _ = some sa := congrArg some (word_of_bytes sa)

theorem memRead_ser_four : memRead (ser sa da sp dp pr) 4 4 = some da :=
  calc memRead (ser sa da sp dp pr) 4 4
      = (ser sa da sp dp pr).word 4 := memRead_four (.inr (.inl rfl))
    _ = some _ := Memory.word_eq rfl rfl rfl rfl
    _ = some da := congrArg some (word_of_bytes da)

theorem memRead_ser_eight : memRead (ser sa da sp dp pr) 8 4 = some (dp ++ sp : BitVec (16 + 16)) :=
  calc memRead (ser sa da sp dp pr) 8 4
      = (ser sa da sp dp pr).word 8 := memRead_four (.inr (.inr rfl))
    _ = some _ := Memory.word_eq rfl rfl rfl rfl
    _ = some _ := congrArg some (word_of_ports sp dp)

theorem memRead_ser_twelve : memRead (ser sa da sp dp pr) 12 1 = some pr := memRead_one

/-- The ports' block as a number, the source port in its low half. -/
theorem ports_toNat : (dp ++ sp : BitVec (16 + 16)).toNat = sp.toNat + 65536 * dp.toNat :=
  (append_toNat dp sp).trans (Nat.add_comm _ _)

end

/-! ### SER as a map between FlowKeys and thirteen-byte arrays (R81) -/

/-- The ports' block determines both ports: they are its halves. -/
theorem ports_append_inj {sp dp sp' dp' : Half}
    (h : (dp ++ sp : BitVec (16 + 16)) = dp' ++ sp') : sp = sp' ∧ dp = dp' := by
  have hnum := congrArg BitVec.toNat h
  rw [ports_toNat, ports_toNat] at hnum
  exact ⟨BitVec.eq_of_toNat_eq (by omega), BitVec.eq_of_toNat_eq (by omega)⟩

/-- The four defined reads of a serialized key tell every field of it. -/
theorem ser_injective {sa da sa' da' : Word} {sp dp sp' dp' : Half} {pr pr' : Byte}
    (h : ser sa da sp dp pr = ser sa' da' sp' dp' pr') :
    sa = sa' ∧ da = da' ∧ sp = sp' ∧ dp = dp' ∧ pr = pr' := by
  have hread (addr n : Nat) := congrArg (memRead · addr n) h
  have hsa : sa = sa' := by simpa only [memRead_ser_zero, Option.some.injEq] using hread 0 4
  have hda : da = da' := by simpa only [memRead_ser_four, Option.some.injEq] using hread 4 4
  have hports := by simpa only [memRead_ser_eight, Option.some.injEq] using hread 8 4
  have hpr : pr = pr' := by simpa only [memRead_ser_twelve, Option.some.injEq] using hread 12 1
  obtain ⟨hsp, hdp⟩ := ports_append_inj hports
  exact ⟨hsa, hda, hsp, hdp, hpr⟩

/-- A memory in canonical form is thirteen bytes, each at its place in the list. -/
theorem Memory.eq_map_range {m : Memory} (hm : m.wf = true) :
    ∃ k : Nat → Byte, m = (List.range 13).map fun i => (i, k i) := by
  have haddrs : m.map Prod.fst = List.range 13 := of_decide_eq_true hm
  have hlen : m.length = 13 := by simpa using congrArg List.length haddrs
  refine ⟨fun i => (m.map Prod.snd).getD i 0, List.ext_getElem (by simp [hlen]) fun i hi _ => ?_⟩
  have hfst : m[i].1 = i :=
    calc m[i].1
        = (m.map Prod.fst)[i]'(by rwa [List.length_map]) := (List.getElem_map Prod.fst).symm
      _ = (List.range 13)[i]'(by rwa [List.length_range, ← hlen]) := List.getElem_of_eq haddrs _
      _ = i := List.getElem_range _
  simp [Prod.ext_iff, hfst, hi]

/-- The fields put together from thirteen bytes serialize to these bytes. -/
theorem ser_of_bytes (k : Nat → Byte) :
    ser (k 3 ++ k 2 ++ k 1 ++ k 0 : BitVec (8 + 8 + 8 + 8))
      (k 7 ++ k 6 ++ k 5 ++ k 4 : BitVec (8 + 8 + 8 + 8)) (k 9 ++ k 8 : BitVec (8 + 8))
      (k 11 ++ k 10 : BitVec (8 + 8)) (k 12) = (List.range 13).map fun i => (i, k i) := by
  simp only [ser, BitVec.extractLsb'_append_eq_left, BitVec.extractLsb'_append_eq_right,
    BitVec.extractLsb'_append_eq_of_le, Nat.reduceLeDiff, Nat.reduceSub]
  rfl

/-! ### The statements of 40_key_serialization.md -/

/-- Settles O11: the reads of the key tell its fields, and thirteen bytes make up fields. -/
theorem serializationIsABijection : Obligations.SerializationIsABijection := by
  refine ⟨fun _ _ _ _ _ _ _ _ _ _ h => ser_injective h, fun m hm => ?_⟩
  obtain ⟨k, rfl⟩ := Memory.eq_map_range hm
  exact ⟨_, _, _, _, _, ser_of_bytes k⟩

/-- Settles O13: each block's four bytes put together are the fields they were taken from. -/
theorem keyWordView : Obligations.KeyWordView := fun sa da sp dp pr =>
  ⟨memRead_ser_zero .., memRead_ser_four .., ⟨_, memRead_ser_eight .., ports_toNat sp dp⟩,
    memRead_ser_twelve .., zext32_toNat pr (by decide)⟩

end Sys2Proof.Machine

/-! Variant A (spec/41_variant_a.md). Its stage functions are compositions of steps each of which is
a bijection, so that they are bijections too and the tail byte is not lost on its way to the digest;
every step of the machine keeps the accumulator at R90's composition. -/

namespace Sys2Proof.Machine

/-! ### The steps that the stage functions are made of (R11 to R15) -/

theorem mul32_comm (a b : Word) : mul32 a b = mul32 b a := BitVec.mul_comm a b

/-- As `mul32_bijective`, with the multiplier first, where the stage functions write it. -/
theorem mul32_left_bijective {m : Word} (hm : m.toNat % 2 = 1) :
    Function.Bijective (fun x => mul32 m x) := by
  simpa only [mul32_comm m] using mul32_bijective hm

theorem add32_comm (a b : Word) : add32 a b = add32 b a := BitVec.add_comm a b

theorem add32_left_bijective (a : Word) : Function.Bijective (fun x => add32 a x) :=
  AddGroup.addLeft_bijective a

theorem xor32_comm (a b : Word) : xor32 a b = xor32 b a := BitVec.xor_comm a b

theorem xor32_left_bijective (a : Word) : Function.Bijective (fun x => xor32 a x) :=
  Function.Injective.bijective_of_finite fun _ _ h => (BitVec.xor_right_inj a).mp h

theorem xor32_right_bijective (a : Word) : Function.Bijective (fun x => xor32 x a) := by
  simpa only [xor32_comm a] using xor32_left_bijective a

/-- Exclusive-or keeps a word exactly when the other word is 0. -/
theorem xor32_eq_left_iff (a b : Word) : xor32 a b = a ↔ b = 0 :=
  (xor32_left_bijective a).injective.eq_iff' BitVec.xor_zero

/-- A rotation only moves bits, so it loses none. -/
theorem rotl32_bijective {n : Nat} (hn : n < 32) : Function.Bijective (fun x => rotl32 x n) := by
  refine Function.Injective.bijective_of_finite fun x y h => BitVec.eq_of_getLsbD_eq fun i hi => ?_
  rw [← rotl32_getLsbD x hn hi, ← rotl32_getLsbD y hn hi]
  exact congrArg (BitVec.getLsbD · ((i + n) % 32)) h

theorem xorShift_eq (h : Word) (n : Nat) : xorShift h n = h ^^^ (h >>> n) := (rfl)

/-- Shift-right-exclusive-or is linear over exclusive-or. -/
theorem xorShift_xor (x y : Word) (n : Nat) :
    xorShift (x ^^^ y) n = xorShift x n ^^^ xorShift y n := by
  simp only [xorShift_eq, BitVec.ushiftRight_xor_distrib]
  ac_rfl

/-- Only 0 is its own right shift: a shift by 1 or more makes any other word smaller. -/
theorem eq_zero_of_xorShift_eq_zero {d : Word} {n : Nat} (hn : 1 ≤ n) (h : xorShift d n = 0) :
    d = 0 := by
  have hshift : d = shr32 d n := BitVec.xor_eq_zero_iff.mp h
  have hnum : d.toNat = d.toNat / 2 ^ n := (congrArg BitVec.toNat hshift).trans (shr32_toNat d n)
  refine BitVec.eq_of_toNat_eq (Nat.eq_zero_of_not_pos fun hpos => ?_)
  exact absurd hnum (Nat.div_lt_self hpos (Nat.one_lt_two_pow (by omega))).ne'

/-- By linearity, words with the same image differ by a word that goes to 0. -/
theorem xorShift_bijective {n : Nat} (hn : 1 ≤ n) : Function.Bijective (fun x => xorShift x n) := by
  refine Function.Injective.bijective_of_finite fun x y h => ?_
  have hdiff : xorShift (x ^^^ y) n = 0 :=
    (xorShift_xor x y n).trans (BitVec.xor_eq_zero_iff.mpr h)
  exact BitVec.xor_eq_zero_iff.mp (eq_zero_of_xorShift_eq_zero hn hdiff)

theorem zext32_injective {n : Nat} (hn : n ≤ 32) : Function.Injective (zext32 (n := n)) :=
  fun x y h => BitVec.eq_of_toNat_eq <| by
    rw [← zext32_toNat x hn, ← zext32_toNat y hn, h]

/-! ### SCR (R91) -/

/-- SCR at the literals of this hardware. -/
theorem scr_hardware (k : Word) :
    scr hardware k = mul32 0x1B873593#32 (rotl32 (mul32 0xCC9E2D51#32 k) 15) := (rfl)

theorem scr_eq (k : Word) :
    scr hardware k = (k * 0xCC9E2D51#32).rotateLeft 15 * 0x1B873593#32 := by
  rw [scr_hardware, mul32_comm, mul32_comm _ k, rotl32_eq_rotateLeft _ (by decide), mul32, mul32]

theorem scr_zero : scr hardware 0 = 0 := by decide

theorem scr_bijective : Function.Bijective (scr hardware) :=
  have hinner := mul32_left_bijective (m := hardware.c1) (hardware_multiplier_odd _ (by simp))
  have houter := mul32_left_bijective (m := hardware.c2) (hardware_multiplier_odd _ (by simp))
  houter.comp ((rotl32_bijective (n := hardware.r1a) (by decide)).comp hinner)

/-! ### ABS (R92) -/

/-- ABS at the literals of this hardware. -/
theorem absorb_hardware (h s : Word) :
    absorb hardware h s = add32 0xE6546B64#32 (mul32 5#32 (rotl32 (xor32 h s) 13)) := (rfl)

theorem absorb_eq (h s : Word) :
    absorb hardware h s = (h ^^^ s).rotateLeft 13 * 5#32 + 0xE6546B64#32 := by
  rw [absorb_hardware, add32_comm, mul32_comm, rotl32_eq_rotateLeft _ (by decide), add32, mul32,
    xor32]

/-- What ABS does after the exclusive-or: rotate, scale and offset. -/
def rotateScaleOffset (x : Word) : Word :=
  add32 hardware.na (mul32 hardware.m5 (rotl32 x hardware.r2a))

theorem absorb_eq_rotateScaleOffset (h s : Word) :
    absorb hardware h s = rotateScaleOffset (xor32 h s) := (rfl)

theorem rotateScaleOffset_bijective : Function.Bijective rotateScaleOffset :=
  have hscale := mul32_left_bijective (m := hardware.m5) (hardware_multiplier_odd _ (by simp))
  (add32_left_bijective hardware.na).comp
    (hscale.comp (rotl32_bijective (n := hardware.r2a) (by decide)))

theorem absorb_bijective_accumulator (s : Word) :
    Function.Bijective (fun h => absorb hardware h s) := by
  simp only [absorb_eq_rotateScaleOffset]
  exact rotateScaleOffset_bijective.comp (xor32_right_bijective s)

theorem absorb_bijective_scrambled (h : Word) :
    Function.Bijective (fun s => absorb hardware h s) := by
  simp only [absorb_eq_rotateScaleOffset]
  exact rotateScaleOffset_bijective.comp (xor32_left_bijective h)

/-! ### FMIX32 (R93) -/

/-- FMIX32 at the literals of this hardware. -/
theorem fmix32_hardware (h : Word) :
    fmix32 hardware h = xorShift (mul32 0xC2B2AE35#32
      (xorShift (mul32 0x85EBCA6B#32 (xorShift h 16)) 13)) 16 := (rfl)

theorem fmix32_eq (h : Word) :
    fmix32 hardware h =
      (let h := h ^^^ (h >>> 16)
       let h := h * 0x85EBCA6B#32
       let h := h ^^^ (h >>> 13)
       let h := h * 0xC2B2AE35#32
       h ^^^ (h >>> 16)) := by
  rw [fmix32_hardware, mul32_comm, mul32_comm _ (xorShift h 16)]
  simp only [xorShift_eq, mul32]

theorem fmix32_zero : fmix32 hardware 0 = 0 := by decide

theorem fmix32_bijective : Function.Bijective (fmix32 hardware) :=
  have hfirst := mul32_left_bijective (m := hardware.f1) (hardware_multiplier_odd _ (by simp))
  have hsecond := mul32_left_bijective (m := hardware.f2) (hardware_multiplier_odd _ (by simp))
  (xorShift_bijective (n := hardware.s3) (by decide)).comp <| hsecond.comp <|
    (xorShift_bijective (n := hardware.s2) (by decide)).comp <| hfirst.comp <|
      xorShift_bijective (n := hardware.s1) (by decide)

/-! ### HashA (R90) -/

/-- HashA as one composition: the three blocks, then the tail word, the length and FMIX32. -/
theorem hashA_eq (sa da : Word) (sp dp : Half) (pr : Byte) (seed : Word) :
    hashA hardware sa da sp dp pr seed =
      fmix32 hardware (xor32 (xor32
        (absorb hardware
          (absorb hardware (absorb hardware seed (scr hardware sa)) (scr hardware da))
          (scr hardware (dp ++ sp : BitVec (16 + 16))))
        (scr hardware (zext32 pr))) keyLen) := (rfl)

/-- The protocol byte reaches the digest through injective steps only (R98). -/
theorem hashA_injective_proto (sa da : Word) (sp dp : Half) (seed : Word) :
    Function.Injective (fun pr => hashA hardware sa da sp dp pr seed) := by
  simp only [hashA_eq]
  exact fmix32_bijective.injective.comp <| (xor32_right_bijective keyLen).injective.comp <|
    (xor32_left_bijective _).injective.comp <| scr_bijective.injective.comp <|
      zext32_injective (by decide)

/-! ### What the statements about the micro-operations need -/

section
variable (s : State)

@[simp] theorem State.deliver_rspValid (d : Word) : (s.deliver d).rspValid = true :=
  State.rspValid_iff.mpr (s.deliver_phase d)

@[simp] theorem State.deliver_rspDigest (d : Word) : (s.deliver d).rspDigest = .ok d := by
  rw [State.rspDigest_of_resp (s.deliver_phase d), State.deliver_digest]

/-- Consuming an input sample is no part of what the invariant speaks of. -/
@[simp] theorem State.popEdge_onTrack : s.popEdge.onTrack = s.onTrack := (rfl)

end

/-- A.TAIL leaves the accumulator as it is for protocol 0 and for no other (R98). -/
theorem xor32_scr_zext32_eq_iff (h : Word) (pr : Byte) :
    xor32 h (scr hardware (zext32 pr)) = h ↔ pr = 0 :=
  calc xor32 h (scr hardware (zext32 pr)) = h
      ↔ scr hardware (zext32 pr) = 0 := xor32_eq_left_iff ..
    _ ↔ zext32 pr = 0 := scr_bijective.injective.eq_iff' scr_zero
    _ ↔ pr = 0 := (zext32_injective (by decide)).eq_iff' rfl

/-- The ones among the bits of the key's length, 13. -/
theorem keyLen_getLsbD : ∀ i < 32, keyLen.getLsbD i = decide (i = 0 ∨ i = 2 ∨ i = 3) := by decide

/-! ### The statements of 41_variant_a.md -/

/-- Settles O51: a step follows the fused block and so ends on track, unless it changes nothing but
the inputs to come. -/
theorem stepKeepsTheOperationOnTrack : Obligations.StepKeepsTheOperationOnTrack := by
  intro s t hs hstep
  obtain ⟨u, hnext, hu⟩ := step_followsFused (.inr hs)
  obtain rfl : u = t := Host.Outcome.next.inj (hnext.symm.trans hstep)
  rcases hu.onTrack with ht | rfl
  · exact ht
  · exact s.popEdge_onTrack.trans hs

/-- Settles O14, with SCR a composition of three bijections. -/
theorem scrambleIsTheThreeStepsAndABijection :
    Obligations.ScrambleIsTheThreeStepsAndABijection :=
  ⟨scr_eq, scr_zero, scr_bijective⟩

/-- Settles O15, with ABS a bijection after an exclusive-or. -/
theorem absorbIsTheThreeStepsAndABijection : Obligations.AbsorbIsTheThreeStepsAndABijection :=
  ⟨absorb_eq, by decide, absorb_bijective_accumulator, absorb_bijective_scrambled⟩

/-- Settles O16, with FMIX32 a composition of five bijections that fixes 0. -/
theorem finalMixerIsTheFiveStepsAndABijection :
    Obligations.FinalMixerIsTheFiveStepsAndABijection :=
  ⟨fmix32_eq, fmix32_bijective, fun _ => fmix32_bijective.injective.eq_iff' fmix32_zero⟩

/-- Settles O20, by the four reads of the serialized key. -/
theorem hashAIsTheCompositionOverTheKey : Obligations.HashAIsTheCompositionOverTheKey :=
  fun sa da sp dp pr seed =>
    ⟨_, _, _, _, memRead_ser_zero .., memRead_ser_four .., memRead_ser_eight ..,
      memRead_ser_twelve .., hashA_eq sa da sp dp pr seed⟩

/-- Settles O23, by the injective steps from the byte to the digest. -/
theorem hashADependsOnTheTailByte : Obligations.HashADependsOnTheTailByte :=
  fun sa da sp dp _ _ seed h => hashA_injective_proto sa da sp dp seed h

/-- Settles O26, by the equation of A.INIT. -/
theorem aInitLoadsTheSeed : Obligations.AInitLoadsTheSeed := ⟨rfl, exec_aInit⟩

/-- Settles O27, each operation by the key word it reads. -/
theorem blockOperationsAbsorbTheKeyWords : Obligations.BlockOperationsAbsorbTheKeyWords :=
  ⟨rfl, rfl, rfl, fun s => ⟨exec_aBlk0 s, exec_aBlk1 s, exec_aBlk2 s⟩⟩

/-- Settles O28: SCR of the zero-extended byte is 0 for the byte 0 only. -/
theorem aTailFoldsTheProtocolByte : Obligations.ATailFoldsTheProtocolByte :=
  ⟨rfl, fun s => ⟨_, exec_aTail s, rfl, xor32_scr_zext32_eq_iff s.h s.pr⟩⟩

/-- Settles O29: a bit is inverted where 13 has a one. -/
theorem aLenInvertsBitsThreeTwoAndZero : Obligations.ALenInvertsBitsThreeTwoAndZero := by
  refine ⟨rfl, fun s => ⟨exec_aLen s, fun i hi => ?_⟩⟩
  have hbit : (s.h ^^^ 0x0000000D#32).getLsbD i = (s.h.getLsbD i ^^ keyLen.getLsbD i) :=
    BitVec.getLsbD_xor
  rw [hbit, keyLen_getLsbD i hi]
  split <;> simp [*]

/-- Settles O30, by the equation of A.FMIX. -/
theorem aFmixAppliesTheFinalMixer : Obligations.AFmixAppliesTheFinalMixer :=
  ⟨rfl, exec_aFmix⟩

/-- Settles O31: both operations deliver, one from `H` and one from `C`. -/
theorem outOperationsDeliverTheDigest : Obligations.OutOperationsDeliverTheDigest :=
  ⟨rfl, rfl, fun s =>
    ⟨⟨_, exec_aOut s, rfl, s.deliver_rspValid s.h, s.deliver_rspDigest s.h⟩,
      ⟨_, exec_bOut s, rfl, s.deliver_rspValid s.c, s.deliver_rspDigest s.c⟩⟩⟩

end Sys2Proof.Machine

/-! Variant B (spec/42_variant_b.md). One mixing or finalization step is injective on triples, hence
a bijection, and so is any list of them; HashB is written over the iterate of MIXB, so that it is
seen to use the finalization amounts in FINALB alone. -/

namespace Sys2Proof.Machine

/-- There are finitely many triples of words, so an injective map on them is a bijection. -/
theorem finite_triple : Finite Triple :=
  Finite.of_injective (fun t => (t.a, t.b, t.c)) fun ⟨_, _, _⟩ ⟨_, _, _⟩ h => by simpa using h

theorem Triple.bijective_of_injective {f : Triple → Triple} (hf : Function.Injective f) :
    Function.Bijective f :=
  haveI := finite_triple
  hf.bijective_of_finite

theorem sub32_left_injective (b : Word) : Function.Injective (fun x => sub32 x b) :=
  fun _ _ h => (BitVec.sub_left_inj b).mp h

theorem add32_right_injective (b : Word) : Function.Injective (fun x => add32 x b) :=
  fun _ _ h => (BitVec.add_left_inj b).mp h

/-! ### MIXB (R111) -/

theorem mixStep_eq (x y z : Word) {r : Nat} (hr : r < 32) :
    mixStep x y z r = ((x - z) ^^^ z.rotateLeft r, z + y) :=
  congrArg (fun k => ((x - z) ^^^ k, z + y)) (rotl32_eq_rotateLeft z hr)

/-- A mixing step loses nothing: the new third word gives the old one back, and that with the new
first word the old first word. -/
theorem mixStep_inj {x x' y z z' : Word} {r : Nat}
    (hfst : (mixStep x y z r).1 = (mixStep x' y z' r).1)
    (hsnd : (mixStep x y z r).2 = (mixStep x' y z' r).2) : x = x' ∧ z = z' := by
  obtain rfl : z = z' := add32_right_injective y hsnd
  exact ⟨sub32_left_injective z ((xor32_right_bijective (rotl32 z r)).injective hfst), rfl⟩

/-- One mixing step, on the triple of the cycle (A,B,C), (B,C,A), (C,A,B) whose turn it is. -/
theorem mixSteps_singleton (r i : Nat) (t : Triple) :
    mixSteps [r] i t =
      if i % 3 = 0 then ⟨(mixStep t.a t.b t.c r).1, t.b, (mixStep t.a t.b t.c r).2⟩
      else if i % 3 = 1 then ⟨(mixStep t.b t.c t.a r).2, (mixStep t.b t.c t.a r).1, t.c⟩
      else ⟨t.a, (mixStep t.c t.a t.b r).2, (mixStep t.c t.a t.b r).1⟩ := by
  obtain h | h | h : i % 3 = 0 ∨ i % 3 = 1 ∨ i % 3 = 2 := by omega
  all_goals simp [mixSteps, h]

theorem mixSteps_singleton_injective (r i : Nat) : Function.Injective (mixSteps [r] i) := by
  rintro ⟨a, b, c⟩ ⟨a', b', c'⟩ h
  rw [mixSteps_singleton, mixSteps_singleton] at h
  split_ifs at h
  · obtain ⟨hfst, rfl, hsnd⟩ := Triple.mk.inj h
    obtain ⟨rfl, rfl⟩ := mixStep_inj hfst hsnd
    rfl
  · obtain ⟨hsnd, hfst, rfl⟩ := Triple.mk.inj h
    obtain ⟨rfl, rfl⟩ := mixStep_inj hfst hsnd
    rfl
  · obtain ⟨rfl, hsnd, hfst⟩ := Triple.mk.inj h
    obtain ⟨rfl, rfl⟩ := mixStep_inj hfst hsnd
    rfl

/-- A list of steps is the first of them, then the rest. -/
theorem mixSteps_injective (rs : List Nat) (i : Nat) : Function.Injective (mixSteps rs i) := by
  induction rs generalizing i with
  | nil => exact Function.injective_id
  | cons r rs ih => exact (ih (i + 1)).comp (mixSteps_singleton_injective r i)

/-- MIXB is a bijection whatever the amounts. -/
theorem mixB_bijective (p : Params) : Function.Bijective (mixB p) :=
  Triple.bijective_of_injective (mixSteps_injective p.mixRots 0)

theorem mixTimes_eq_iterate (p : Params) (n : Nat) (t : Triple) :
    mixTimes p n t = (mixB p)^[n] t := by
  induction n generalizing t with
  | zero => rfl
  | succ n ih => exact ih (mixB p t)

/-! ### FINALB (R116) -/

theorem finStep_eq (x y : Word) {r : Nat} (hr : r < 32) :
    finStep x y r = (x ^^^ y) - y.rotateLeft r :=
  congrArg (fun k => (x ^^^ y) - k) (rotl32_eq_rotateLeft y hr)

theorem finStep_left_injective (y : Word) (r : Nat) : Function.Injective (fun x => finStep x y r) :=
  (sub32_left_injective (rotl32 y r)).comp (xor32_right_bijective y).injective

/-- One finalization step, on the pair of the cycle (C,B), (A,C), (B,A) whose turn it is. -/
theorem finalSteps_singleton (r i : Nat) (t : Triple) :
    finalSteps [r] i t =
      if i % 3 = 0 then ⟨t.a, t.b, finStep t.c t.b r⟩
      else if i % 3 = 1 then ⟨finStep t.a t.c r, t.b, t.c⟩
      else ⟨t.a, finStep t.b t.a r, t.c⟩ := by
  obtain h | h | h : i % 3 = 0 ∨ i % 3 = 1 ∨ i % 3 = 2 := by omega
  all_goals simp [finalSteps, h]

theorem finalSteps_singleton_injective (r i : Nat) : Function.Injective (finalSteps [r] i) := by
  rintro ⟨a, b, c⟩ ⟨a', b', c'⟩ h
  rw [finalSteps_singleton, finalSteps_singleton] at h
  split_ifs at h
  · obtain ⟨rfl, rfl, hc⟩ := Triple.mk.inj h
    obtain rfl : c = c' := finStep_left_injective _ r hc
    rfl
  · obtain ⟨ha, rfl, rfl⟩ := Triple.mk.inj h
    obtain rfl : a = a' := finStep_left_injective _ r ha
    rfl
  · obtain ⟨rfl, hb, rfl⟩ := Triple.mk.inj h
    obtain rfl : b = b' := finStep_left_injective _ r hb
    rfl

theorem finalSteps_append (rs rs' : List Nat) (i : Nat) (t : Triple) :
    finalSteps (rs ++ rs') i t = finalSteps rs' (i + rs.length) (finalSteps rs i t) := by
  induction rs generalizing i t with
  | nil => rfl
  | cons r rs ih =>
    rw [List.length_cons, Nat.add_comm rs.length, ← Nat.add_assoc]
    exact ih (i + 1) _

theorem finalSteps_injective (rs : List Nat) (i : Nat) : Function.Injective (finalSteps rs i) := by
  induction rs generalizing i with
  | nil => exact Function.injective_id
  | cons r rs ih => exact (ih (i + 1)).comp (finalSteps_singleton_injective r i)

/-- FINALB is a bijection whatever the amounts. -/
theorem finalB_bijective (p : Params) : Function.Bijective (finalB p) :=
  Triple.bijective_of_injective (finalSteps_injective p.finalRots 0)

/-- Two steps on the pairs (A,C) and (B,A) leave `C` as it is. -/
theorem finalSteps_pair_c {i : Nat} (hi : i % 3 = 1) (r r' : Nat) (t : Triple) :
    (finalSteps [r, r'] i t).c = t.c := by
  rw [show [r, r'] = [r] ++ [r'] from rfl, finalSteps_append, finalSteps_singleton,
    finalSteps_singleton]
  simp [hi, show (i + 1) % 3 = 2 by omega]

/-- Of six finalization steps the fourth is the last to write `C` (R119). -/
theorem finalSteps_take_four_c {rs : List Nat} (hlen : rs.length = 6) (t : Triple) :
    (finalSteps (rs.take 4) 0 t).c = (finalSteps rs 0 t).c := by
  obtain ⟨r, r', hdrop⟩ : ∃ r r', rs.drop 4 = [r, r'] :=
    List.length_eq_two.mp (by rw [List.length_drop, hlen])
  have hsplit : rs = rs.take 4 ++ [r, r'] := by rw [← hdrop, List.take_append_drop]
  have hturn : (0 + (rs.take 4).length) % 3 = 1 := by simp [hlen]
  conv_rhs => rw [hsplit, finalSteps_append, finalSteps_pair_c hturn]

/-! ### HashB (R110) -/

/-- HashB as one composition: the key words added to the initial value, MIXB as often as the
parameter says, then the protocol byte and FINALB. -/
theorem hashB_eq (p : Params) (sa da : Word) (sp dp : Half) (pr : Byte) (seed : Word) :
    hashB p sa da sp dp pr seed =
      (let t := (mixB p)^[p.pBMix] (absorbedB p sa da sp dp seed)
       (finalB p ⟨add32 t.a (zext32 pr), t.b, t.c⟩).c) := by
  rw [hashB, mixTimes_eq_iterate]

/-- The initial value at the literals of this hardware (R112). -/
theorem initialValue_hardware (seed : Word) :
    initialValue hardware seed = 0xDEADBEFC#32 + seed :=
  congrArg (· + seed) (show hardware.ivb + keyLen = 0xDEADBEFC#32 by decide)

/-- B.TAIL leaves `A` as it is for protocol 0 and for no other (R115). -/
theorem add_zext32_eq_iff (a : Word) (pr : Byte) : a + zext32 pr = a ↔ pr = 0 :=
  calc a + zext32 pr = a
      ↔ zext32 pr = 0 := add_eq_left
    _ ↔ pr = 0 := (zext32_injective (by decide)).eq_iff' rfl

/-! ### The statements of 42_variant_b.md -/

/-- Settles O17, with MIXB a sequence of injective steps. -/
theorem mixIsTheSixStepsAndABijection : Obligations.MixIsTheSixStepsAndABijection := by
  refine ⟨fun a b c => ?_, by decide, mixB_bijective hardware⟩
  simp only [mixB, hardware, mixSteps, mixStep_eq, Nat.reduceLT]

/-- Settles O18, with FINALB a sequence of injective steps, one for each amount. -/
theorem finalizationIsTheSixStepsAndABijection :
    Obligations.FinalizationIsTheSixStepsAndABijection := by
  refine ⟨fun a b c => ?_, by decide, finalB_bijective hardware, fun rots r t => ?_⟩
  · simp only [finalB, hardware, finalSteps, finStep_eq, Nat.reduceLT]
  · rw [finalSteps_append, Nat.zero_add, finalSteps_singleton]

/-- Settles O19: no step after the fourth writes `C`, and MIXB does not use these amounts. -/
theorem lastTwoFinalizationStepsAreDead : Obligations.LastTwoFinalizationStepsAreDead := by
  intro p hlen sa da sp dp pr seed
  rw [hashB_eq, hashB_eq]
  exact (finalSteps_take_four_c hlen _).symm

/-- Settles O21, by the four reads of the serialized key. -/
theorem hashBIsTheCompositionOverTheKey : Obligations.HashBIsTheCompositionOverTheKey :=
  fun p sa da sp dp pr seed =>
    ⟨_, _, _, _, memRead_ser_zero .., memRead_ser_four .., memRead_ser_eight ..,
      memRead_ser_twelve .., hashB_eq p sa da sp dp pr seed⟩

/-- Settles O32, by the initial value at this hardware's literals. -/
theorem bInitLoadsTheInitialValue : Obligations.BInitLoadsTheInitialValue := by
  refine ⟨rfl, fun s => ?_⟩
  rw [exec_bInit, initialValue_hardware]
  rfl

/-- Settles O33, by the three key words B.ABSORB reads. -/
theorem bAbsorbAddsTheKeyWords : Obligations.BAbsorbAddsTheKeyWords := ⟨rfl, exec_bAbsorb⟩

/-- Settles O34: MIXB applied 0 times gives the three words back. -/
theorem bMixChangesOnlyTheStep : Obligations.BMixChangesOnlyTheStep :=
  ⟨rfl, exec_bMix, rfl, mixTimes_eq_iterate⟩

/-- Settles O35: the zero-extended byte is 0 for the byte 0 only. -/
theorem bTailAddsTheProtocolByte : Obligations.BTailAddsTheProtocolByte :=
  ⟨rfl, fun s => ⟨exec_bTail s, add_zext32_eq_iff s.a s.pr⟩⟩

/-- Settles O36, by the equation of B.FINAL. -/
theorem bFinalAppliesTheFinalization : Obligations.BFinalAppliesTheFinalization :=
  ⟨rfl, exec_bFinal⟩

end Sys2Proof.Machine

/-! The sequencer and the handshake (spec/43_sequencer_and_handshake.md): one equation for each line
of R130's table, the control values after a STEP event, and runs, which follow the fused block. -/

namespace Sys2Proof.Machine

/-! ### One rising edge, line by line of R130's table -/

section
variable {e : Edge} {s : State}

/-- In IDLE the word on the operand ports is decoded and run. -/
theorem clockEdge_request (he : e.rst = false) (hp : s.phase = .idle) (hv : e.reqValid = true) :
    clockEdge e s = runCode (.req e.req.word) s := by
  simp [clockEdge, he, hp, hv]

theorem clockEdge_accept (he : e.rst = false) (hp : s.phase = .idle) (hv : e.reqValid = true) :
    clockEdge e s = .next (s.accept e.req) :=
  (clockEdge_request he hp hv).trans (runCode_req_idle hp e.req)

theorem clockEdge_idle (he : e.rst = false) (hp : s.phase = .idle) (hv : e.reqValid = false) :
    clockEdge e s = .next s := by
  simp [clockEdge, he, hp, hv]

theorem clockEdge_rest (he : e.rst = false) (hp : s.phase = .run) (hr : e.rest = true) :
    clockEdge e s = .next s := by
  simp [clockEdge, he, hp, hr]

theorem clockEdge_hold (he : e.rst = false) (hp : s.phase = .resp) (hv : e.rspReady = false) :
    clockEdge e s = .next s := by
  simp [clockEdge, he, hp, hv]

theorem clockEdge_take (he : e.rst = false) (hp : s.phase = .resp) (hv : e.rspReady = true) :
    clockEdge e s = .next s.take := by
  simp [clockEdge, he, hp, hv]

end

theorem runCode_ok {cw : CodeWord} {i : Instr} (h : decode cw = .ok i) (s : State) :
    runCode cw s = exec i s := by
  rw [runCode, h]

/-! ### The request operations (R131) -/

section
variable (sa da : Word) (sp dp : Half) (proto : Byte) (seed : Word) (s : State)

theorem exec_hasha :
    exec (.hasha sa da sp dp proto seed) s = s.offer ⟨0, sa, da, sp, dp, proto, seed⟩ := (rfl)

theorem exec_hashb :
    exec (.hashb sa da sp dp proto seed) s = s.offer ⟨1, sa, da, sp, dp, proto, seed⟩ := (rfl)

end

/-! ### The control values after a STEP event (R133) -/

/-- Every micro-address of an admitted state in RUN names a micro-operation (R26, R63). -/
theorem decode_uaddr_of_admitted {s : State} (hs : s.admitted = true) (hp : s.phase = .run) :
    ∃ i, decode (.uaddr s.uaddr) = .ok i := by
  have hnamed : ∀ (v : BitVec 1) (u : BitVec 3), v = 0 ∨ u.toNat < 6 →
      (decode (.uaddr (v ++ u))).isOk = true := by decide
  have hreach : s.var = 0 ∨ s.ustep.toNat < 6 := by simpa [State.admitted, hp] using hs
  have hok : (decode (.uaddr s.uaddr)).isOk = true := hnamed s.var s.ustep hreach
  cases hi : decode (.uaddr s.uaddr) with
  | ok i => exact ⟨i, rfl⟩
  | error r => rw [hi] at hok; cases hok

/-- A micro-operation answers a next state, and writes to `USTEP` one more than its own step, but
for the two OUT operations, which write 0. -/
theorem exec_ustep_of_encode {i : Instr} {u : MicroAddr} (hi : encode i = .uaddr u) (s : State) :
    ∃ t, exec i s = .next t ∧
      t.ustep = if u = 0b0111#4 ∨ u = 0b1101#4 then 0 else u.extractLsb' 0 3 + 1 := by
  cases i with
  | hasha | hashb => cases hi
  | _ => cases hi; simp

/-- The micro-addresses of the OUT operations are those of the last step of each sequence. -/
theorem uaddr_out_iff (s : State) :
    (s.uaddr = 0b0111#4 ∨ s.uaddr = 0b1101#4) ↔ s.ustep = if s.var = 0 then 7 else 5 := by
  have hbits : ∀ (v : BitVec 1) (u : BitVec 3),
      (v ++ u = 0b0111#4 ∨ v ++ u = 0b1101#4) ↔ u = if v = 0 then 7 else 5 := by decide
  exact hbits s.var s.ustep

theorem uaddr_step (s : State) : s.uaddr.extractLsb' 0 3 = s.ustep :=
  BitVec.extractLsb'_append_eq_right

/-- A STEP event from an admitted state: whatever the registers hold, it keeps the request latch,
and `VAR` and `USTEP` alone say where `USTEP` and `PHASE` go. -/
theorem runCode_uaddr_control {s : State} (hs : s.admitted = true) (hp : s.phase = .run) :
    ∃ t, runCode (.uaddr s.uaddr) s = .next t ∧ t.latched = s.latched ∧
      t.ustep = (if s.ustep = (if s.var = 0 then 7 else 5) then 0 else s.ustep + 1) ∧
      t.phase = if s.ustep = (if s.var = 0 then 7 else 5) then .resp else .run := by
  obtain ⟨i, hi⟩ := decode_uaddr_of_admitted hs hp
  obtain ⟨t, hexec, hu⟩ := exec_ustep_of_encode (encode_of_decode_uaddr hi) s
  have hw := microWrite_of_exec (requestOf_of_decode_uaddr hi) hexec
  refine ⟨t, (runCode_ok hi s).trans hexec, hw.latched_eq, ?_, ?_⟩
  · rw [hu, uaddr_step]
    exact if_congr (uaddr_out_iff s) rfl rfl
  · rw [hw.phase_eq hi, hp]
    exact if_congr (uaddr_out_iff s) rfl rfl

/-! ### The fused block from ACCEPT to the digest (R132, R134) -/

/-- The number of edges in a list at which a block in RUN takes a STEP. -/
def stepEvents (es : List Edge) : Nat := (es.filter (fun e => !e.rest)).length

theorem stepEvents_cons_rest {e : Edge} (es : List Edge) (hr : e.rest = true) :
    stepEvents (e :: es) = stepEvents es := by
  simp [stepEvents, hr]

theorem stepEvents_cons_step {e : Edge} (es : List Edge) (hr : e.rest = false) :
    stepEvents (e :: es) = stepEvents es + 1 := by
  simp [stepEvents, hr]

theorem stepEvents_replicate_quiet (k : Nat) : stepEvents (List.replicate k Edge.quiet) = k := by
  simp [stepEvents, Edge.quiet]

section
variable {e : Edge} {left : Nat} (r : Request)

theorem fusedEdge_busy_rest (he : e.rst = false) (hr : e.rest = true) :
    fusedEdge e (.busy r left) = .busy r left := by
  simp [fusedEdge, he, hr]

theorem fusedEdge_busy_last (he : e.rst = false) (hr : e.rest = false) (hlast : left ≤ 1) :
    fusedEdge e (.busy r left) = .offering (hashOf r) := by
  simp [fusedEdge, he, hr, hlast]

theorem fusedEdge_busy_more (he : e.rst = false) (hr : e.rest = false) (hmore : 1 < left) :
    fusedEdge e (.busy r left) = .busy r (left - 1) := by
  simp [fusedEdge, he, hr, Nat.not_le.mpr hmore]

theorem fusedEdge_offering_hold (d : Word) (he : e.rst = false) (hv : e.rspReady = false) :
    fusedEdge e (.offering d) = .offering d := by
  simp [fusedEdge, he, hv]

end

/-- With too few STEP events the fused block counts them and stays busy. -/
theorem fusedRun_busy_of_lt {es : List Edge} {left : Nat} (r : Request)
    (hes : ∀ e ∈ es, e.rst = false) (hleft : stepEvents es < left) :
    fusedRun es (.busy r left) = .busy r (left - stepEvents es) := by
  induction es generalizing left with
  | nil => rfl
  | cons e es ih =>
    obtain ⟨he, hes⟩ := List.forall_mem_cons.mp hes
    cases hr : e.rest with
    | true =>
      rw [stepEvents_cons_rest es hr] at hleft ⊢
      rw [fusedRun_cons, fusedEdge_busy_rest r he hr, ih hes hleft]
    | false =>
      rw [stepEvents_cons_step es hr] at hleft ⊢
      rw [fusedRun_cons, fusedEdge_busy_more r he hr (by omega), ih hes (by omega), Nat.sub_sub,
        Nat.add_comm]

/-- A response that is not taken is held (R134). -/
theorem fusedRun_offering {es : List Edge} (d : Word)
    (hes : ∀ e ∈ es, e.rst = false ∧ e.rspReady = false) :
    fusedRun es (.offering d) = .offering d := by
  induction es with
  | nil => rfl
  | cons e es ih =>
    obtain ⟨⟨he, hv⟩, hes⟩ := List.forall_mem_cons.mp hes
    rw [fusedRun_cons, fusedEdge_offering_hold d he hv, ih hes]

/-- With enough STEP events, and nobody to take the response, the fused block offers the digest. -/
theorem fusedRun_busy_of_le {es : List Edge} {left : Nat} (r : Request)
    (hes : ∀ e ∈ es, e.rst = false ∧ e.rspReady = false) (hpos : 0 < left)
    (hleft : left ≤ stepEvents es) : fusedRun es (.busy r left) = .offering (hashOf r) := by
  induction es generalizing left with
  | nil => exact absurd hleft (Nat.not_le.mpr hpos)
  | cons e es ih =>
    obtain ⟨⟨he, -⟩, hes⟩ := List.forall_mem_cons.mp hes
    rw [fusedRun_cons]
    cases hr : e.rest with
    | true =>
      rw [stepEvents_cons_rest es hr] at hleft
      rw [fusedEdge_busy_rest r he hr, ih hes hpos hleft]
    | false =>
      rw [stepEvents_cons_step es hr] at hleft
      rcases Nat.lt_or_ge 1 left with hmore | hlast
      · rw [fusedEdge_busy_more r he hr hmore, ih hes (by omega) (by omega)]
      · rw [fusedEdge_busy_last r he hr hlast, fusedRun_offering _ hes]

theorem stepsOf_pos (var : BitVec 1) : 0 < stepsOf var := by
  obtain ⟨n, hn⟩ := stepsOf_eq_succ var
  omega

/-- From IDLE, over an edge that offers a request and all the edges to come after it, the block goes
where the fused block goes from the request just accepted. -/
theorem run_of_request {s : State} {e : Edge} {es : List Edge} (hp : s.phase = .idle)
    (hedges : s.edges = e :: es) (he : e.rst = false) (hv : e.reqValid = true) :
    ∃ t, run (es.length + 1) s = .next t ∧ t.edges = [] ∧
      t.fused = fusedRun es (.busy e.req (stepsOf e.req.var)) := by
  obtain ⟨t, hrun, hused, hview, -⟩ := run_edges_followsFused _ (.inl hp) hedges
  have haccept : fusedEdge e .idle = .busy e.req (stepsOf e.req.var) := by
    simp [fusedEdge, he, hv]
  rw [fused_idle hp, fusedRun_cons, haccept] at hview
  exact ⟨t, hrun, hused, hview⟩

/-! ### What the fused view tells of a state -/

section
variable {s : State}

theorem of_fused_busy {r : Request} {left : Nat} (h : s.fused = .busy r left) :
    s.phase = .run ∧ s.latched = r ∧ stepsOf s.var - s.ustep.toNat = left := by
  cases hp : s.phase with
  | idle => simp [fused_idle hp] at h
  | run => simpa [fused_run hp] using h
  | resp => simp [fused_resp hp] at h

theorem of_fused_offering {d : Word} (h : s.fused = .offering d) :
    s.phase = .resp ∧ s.digest = d := by
  cases hp : s.phase with
  | idle => simp [fused_idle hp] at h
  | run => simp [fused_run hp] at h
  | resp => simpa [fused_resp hp] using h

end

/-! ### Acceptances, deliveries and the digest owed (R135, R140) -/

/-- The request the fused block accepts at an edge, if it accepts one (R131). -/
def FusedState.accepting (e : Edge) : FusedState → List Request
  | .idle => if !e.rst && e.reqValid then [e.req] else []
  | _ => []

/-- The digest the fused block still owes: of the request it computes, or the one it offers. -/
def FusedState.owed : FusedState → List Word
  | .idle => []
  | .busy r _ => [hashOf r]
  | .offering d => [d]

theorem accepting_eq_fused_accepting (s : State) :
    s.accepting = s.fused.accepting s.nextEdge := by
  cases hp : s.phase <;> simp [State.accepting, State.fused, FusedState.accepting, hp]

/-- What the block owes is what its fused view owes: on track, the digest it offers is that of the
latched operands. -/
theorem owed_eq_fused_owed {s : State} (hs : s.phase = .idle ∨ s.onTrack = true) :
    s.owed = s.fused.owed := by
  cases hp : s.phase with
  | idle => simp [State.owed, fused_idle hp, FusedState.owed, hp]
  | run => simp [State.owed, fused_run hp, FusedState.owed, hp]
  | resp =>
    obtain ⟨-, hd⟩ := (onTrack_resp hp).mp (hs.resolve_left (by simp [hp]))
    simp [State.owed, fused_resp hp, FusedState.owed, hp, hd]

/-- At one edge without RESET: what is owed, with the digest of a request then accepted, is what is
then delivered, with what is owed afterwards. -/
theorem fused_balance {e : Edge} (he : e.rst = false) (f : FusedState) :
    f.owed ++ (f.accepting e).map hashOf = f.delivering e ++ (fusedEdge e f).owed := by
  cases f with
  | idle =>
    cases hv : e.reqValid <;>
      simp [FusedState.owed, FusedState.accepting, FusedState.delivering, fusedEdge, he, hv]
  | busy r left =>
    have howed : (fusedEdge e (.busy r left)).owed = [hashOf r] := by
      simp only [fusedEdge, he, Bool.false_eq_true, if_false]
      split_ifs <;> rfl
    rw [howed]
    rfl
  | offering d =>
    cases hv : e.rspReady <;>
      simp [FusedState.owed, FusedState.accepting, FusedState.delivering, fusedEdge, he, hv]

/-- Where no sample to come raises `rst` the next one does not, be it the quiet one. -/
theorem nextEdge_rst_of_edges {s : State} (hedges : ∀ e ∈ s.edges, e.rst = false) :
    s.nextEdge.rst = false := by
  cases hs : s.edges with
  | nil => simp [State.nextEdge, hs, Edge.quiet]
  | cons e es => simpa [State.nextEdge, hs] using hedges e (by simp [hs])

/-- The balance over a run, from every state `step_followsFused` speaks of. -/
theorem run_balance (n : Nat) {s : State} (hs : s.phase = .idle ∨ s.onTrack = true)
    (hedges : ∀ e ∈ s.edges, e.rst = false) :
    ∃ t, run n s = .next t ∧
      s.owed ++ (acceptances n s).map hashOf = deliveries n s ++ t.owed := by
  induction n generalizing s with
  | zero => exact ⟨s, run_zero s, by simp⟩
  | succ n ih =>
    obtain ⟨u, hstep, hu⟩ := step_followsFused hs
    have hlive := hu.live (s := s.popEdge) hs
    have hedges_next : ∀ e ∈ u.edges, e.rst = false := by
      rw [hu.edges, State.popEdge_edges]
      exact fun e he => hedges e (List.mem_of_mem_tail he)
    have hedge : s.owed ++ s.accepting.map hashOf = s.delivering ++ u.owed := by
      rw [owed_eq_fused_owed hs, owed_eq_fused_owed hlive, accepting_eq_fused_accepting,
        delivering_eq_fused_delivering, hu.fused]
      exact fused_balance (nextEdge_rst_of_edges hedges) s.fused
    obtain ⟨t, hrun, hrest⟩ := ih hlive hedges_next
    refine ⟨t, (run_succ hstep n).trans hrun, ?_⟩
    calc s.owed ++ (acceptances (n + 1) s).map hashOf
        = (s.owed ++ s.accepting.map hashOf) ++ (acceptances n u).map hashOf := by
          rw [acceptances_succ hstep, List.map_append, List.append_assoc]
      _ = s.delivering ++ (u.owed ++ (acceptances n u).map hashOf) := by
          rw [hedge, List.append_assoc]
      _ = deliveries (n + 1) s ++ t.owed := by
          rw [hrest, deliveries_succ hstep, List.append_assoc]

/-! ### The statements of 43_sequencer_and_handshake.md -/

/-- Settles O56: no port shows a working register, and a step from a state on track follows the
fused block. -/
theorem stepRefinesTheFusedBlock : Obligations.StepRefinesTheFusedBlock := by
  intro s hs
  obtain ⟨t, hstep, ht⟩ := step_followsFused (.inr hs)
  exact ⟨outputs_eq_fused_outputs s, t, hstep, ht.fused⟩

/-- Settles O46, by what a STEP event does to the control values. -/
theorem controlIsSequential : Obligations.ControlIsSequential := by
  intro s hs hp he hr
  obtain ⟨t, hcode, hlatched, hu, hpt⟩ := runCode_uaddr_control (s := s.popEdge) hs hp
  refine ⟨t, (clockEdge_run (s := s.popEdge) he hr hp).trans hcode, congrArg Request.var hlatched,
    fun hlast => ?_, fun hmore => ?_⟩
  · exact ⟨hu.trans (if_pos hlast), hpt.trans (if_pos hlast)⟩
  · exact ⟨hu.trans (if_neg hmore), hpt.trans (if_neg hmore)⟩

/-- Settles O52: the fused block offers the digest after enough STEP events and holds it. -/
theorem acceptedRequestReachesItsDigest : Obligations.AcceptedRequestReachesItsDigest := by
  intro s e es hp hedges he hv hes hsteps
  obtain ⟨t, hrun, hused, hview⟩ := run_of_request hp hedges he hv
  rw [fusedRun_busy_of_le e.req hes (stepsOf_pos _) hsteps] at hview
  obtain ⟨hpt, hdigest⟩ := of_fused_offering hview
  exact ⟨t, hrun, hpt, (State.rspDigest_of_resp hpt).trans (congrArg Except.ok hdigest), hused⟩

/-- Settles O53: `k` quiet edges are `k` STEP events, and the fused view tells `USTEP` by the STEP
events still to come. -/
theorem operationTakesEightOrSixSteps : Obligations.OperationTakesEightOrSixSteps := by
  intro s r k hp hedges _
  obtain ⟨t, hrun, -, hview⟩ := run_of_request hp hedges rfl rfl
  change t.fused = fusedRun _ (.busy r (stepsOf r.var)) at hview
  have hquiet : ∀ e ∈ List.replicate k Edge.quiet, e.rst = false ∧ e.rspReady = false := by
    intro e he
    rw [List.eq_of_mem_replicate he]
    exact ⟨rfl, rfl⟩
  have hcount : stepEvents (List.replicate k Edge.quiet) = k := stepEvents_replicate_quiet k
  rw [List.length_replicate] at hrun
  refine ⟨t, hrun, fun (hlt : k < stepsOf r.var) => ?_, fun (hall : k = stepsOf r.var) => ?_⟩
  · rw [fusedRun_busy_of_lt r (fun e he => (hquiet e he).1) (hcount.trans_lt hlt), hcount] at hview
    obtain ⟨hpt, hlatched, hleft⟩ := of_fused_busy hview
    have hvar : t.var = r.var := congrArg Request.var hlatched
    rw [hvar] at hleft
    exact ⟨hpt, by omega, hvar⟩
  · rw [fusedRun_busy_of_le r hquiet (stepsOf_pos _) (hcount.trans hall).ge] at hview
    exact of_fused_offering hview

/-- Settles O54: an idle block owes nothing, and every edge keeps the balance. -/
theorem deliveriesAreTheDigestsOfTheAcceptances :
    Obligations.DeliveriesAreTheDigestsOfTheAcceptances := by
  intro n s hp hedges
  obtain ⟨t, hrun, hbalance⟩ := run_balance n (.inl hp) hedges
  have hnone : s.owed = [] := by simp [State.owed, hp]
  rw [hnone, List.nil_append] at hbalance
  exact ⟨t, hrun, hbalance⟩

/-- Settles O24: in IDLE the request is accepted, and the key buffer is its serialization. -/
theorem requestIsAcceptedInIdle : Obligations.RequestIsAcceptedInIdle := by
  intro sa da sp dp proto seed s hp
  have ha := (exec_hasha sa da sp dp proto seed s).trans (State.offer_idle hp _)
  have hb := (exec_hashb sa da sp dp proto seed s).trans (State.offer_idle hp _)
  refine ⟨ha, hb, fun t ht a => ?_⟩
  rcases ht with ht | ht
  · cases ha.symm.trans ht
    rw [State.accept_mem]
  · cases hb.symm.trans ht
    rw [State.accept_mem]

/-- Settles O25: an offer outside IDLE changes nothing. -/
theorem requestIsIgnoredOutsideIdle : Obligations.RequestIsIgnoredOutsideIdle :=
  fun _ _ _ _ _ _ _ hp =>
    ⟨(exec_hasha ..).trans (State.offer_busy hp _), (exec_hashb ..).trans (State.offer_busy hp _)⟩

/-- Settles O38: the edge runs the code word of the phase. -/
theorem stepRunsTheDecodedInstruction : Obligations.StepRunsTheDecodedInstruction :=
  fun s _ he =>
    ⟨fun hp hv hi => (clockEdge_request (s := s.popEdge) he hp hv).trans (runCode_ok hi _),
      fun hp hr hi => (clockEdge_run (s := s.popEdge) he hr hp).trans (runCode_ok hi _)⟩

/-- Settles O39: the word on the ports carries the operands themselves. -/
theorem stepAcceptsTheRequestOnThePorts : Obligations.StepAcceptsTheRequestOnThePorts :=
  fun s he hp hv => clockEdge_accept (s := s.popEdge) he hp hv

/-- Settles O40, line by line of R130's table. -/
theorem stepHoldsTakesAndIdles : Obligations.StepHoldsTakesAndIdles := fun s he =>
  ⟨clockEdge_idle (s := s.popEdge) he, clockEdge_rest (s := s.popEdge) he,
    clockEdge_hold (s := s.popEdge) he, clockEdge_take (s := s.popEdge) he⟩

end Sys2Proof.Machine

/-! The order of precedence and the absence of exceptions (spec/60_exceptions.md): which inputs an
edge looks at in each phase (R147), and that a step from an admitted state never stops (R145). -/

namespace Sys2Proof.Machine

/-! ### The inputs an edge looks at (R147) -/

/-- The RESET line of R130's table: `rst` is looked at before the phase. -/
theorem clockEdge_reset {e : Edge} (he : e.rst = true) (s : State) :
    clockEdge e s = .next s.resetEvent := by
  simp [clockEdge, he]

section
variable {e e' : Edge} {s : State}

/-- Outside IDLE an edge is fixed by `rst`, the block's rest and `rsp_ready`. -/
theorem clockEdge_congr_of_ne_idle (hp : s.phase ≠ .idle) (hrst : e.rst = e'.rst)
    (hrest : e.rest = e'.rest) (hready : e.rspReady = e'.rspReady) :
    clockEdge e s = clockEdge e' s := by
  cases hs : s.phase with
  | idle => exact absurd hs hp
  | run => simp [clockEdge, hs, hrst, hrest]
  | resp => simp [clockEdge, hs, hrst, hready]

/-- Outside RESP an edge is fixed by `rst`, the block's rest and the request offered. -/
theorem clockEdge_congr_of_ne_resp (hp : s.phase ≠ .resp) (hrst : e.rst = e'.rst)
    (hrest : e.rest = e'.rest) (hvalid : e.reqValid = e'.reqValid) (hreq : e.req = e'.req) :
    clockEdge e s = clockEdge e' s := by
  cases hs : s.phase with
  | idle => simp [clockEdge, hs, hrst, hvalid, hreq]
  | run => simp [clockEdge, hs, hrst, hrest]
  | resp => exact absurd hs hp

end

/-! ### The states the rules admit (R26) -/

section
variable {s : State}

theorem admitted_run (hp : s.phase = .run) :
    s.admitted = true ↔ s.var = 0 ∨ s.ustep.toNat < 6 := by
  simp [State.admitted, hp]

/-- `USTEP = 0` is admitted in every phase. -/
theorem admitted_of_ustep_eq_zero (hu : s.ustep = 0) : s.admitted = true := by
  cases hp : s.phase with
  | idle | resp => simp [State.admitted, hp, hu]
  | run => exact (admitted_run hp).mpr (.inr (by simp [hu]))

theorem ustep_eq_zero_of_admitted_resp (hs : s.admitted = true) (hp : s.phase = .resp) :
    s.ustep = 0 := by
  simpa [State.admitted, hp] using hs

/-! ### What an edge answers from an admitted state (R145) -/

/-- A STEP event of HASHB counts on from a micro-address below its last, so that `USTEP` stays below
6; the last one of either operation writes 0. -/
theorem runCode_uaddr_admitted (hs : s.admitted = true) (hp : s.phase = .run) :
    ∃ t, runCode (.uaddr s.uaddr) s = .next t ∧ t.admitted = true := by
  obtain ⟨t, hcode, hlatched, hu, hpt⟩ := runCode_uaddr_control hs hp
  refine ⟨t, hcode, ?_⟩
  by_cases hlast : s.ustep = if s.var = 0 then 7 else 5
  · exact admitted_of_ustep_eq_zero (hu.trans (if_pos hlast))
  · rw [if_neg hlast] at hu hpt
    have hvar : t.var = s.var := congrArg Request.var hlatched
    rw [admitted_run hpt, hvar, hu]
    rcases bit_cases s.var with hv | hv
    · exact .inl hv
    · have hlt : s.ustep.toNat < 6 := ((admitted_run hp).mp hs).resolve_left (by simp [hv])
      have hne : s.ustep ≠ 5 := by simpa [hv] using hlast
      exact .inr (by bv_omega)

/-- Whatever the inputs, line by line of R130's table. -/
theorem clockEdge_admitted (e : Edge) (hs : s.admitted = true) :
    ∃ t, clockEdge e s = .next t ∧ t.admitted = true := by
  cases he : e.rst with
  | true => exact ⟨_, clockEdge_reset he s, admitted_of_ustep_eq_zero s.resetEvent_ustep⟩
  | false =>
    cases hp : s.phase with
    | idle =>
      cases hv : e.reqValid with
      | true =>
        exact ⟨_, clockEdge_accept he hp hv, admitted_of_ustep_eq_zero (s.accept_ustep e.req)⟩
      | false => exact ⟨s, clockEdge_idle he hp hv, hs⟩
    | run =>
      cases hr : e.rest with
      | true => exact ⟨s, clockEdge_rest he hp hr, hs⟩
      | false =>
        rw [clockEdge_run he hr hp]
        exact runCode_uaddr_admitted hs hp
    | resp =>
      cases hv : e.rspReady with
      | true =>
        exact ⟨_, clockEdge_take he hp hv,
          admitted_of_ustep_eq_zero (s.take_ustep.trans (ustep_eq_zero_of_admitted_resp hs hp))⟩
      | false => exact ⟨s, clockEdge_hold he hp hv, hs⟩

end

/-! ### The statements of 60_exceptions.md -/

/-- Settles O42: an edge is fixed by the inputs its phase looks at, and by `rst` alone where that is
1. -/
theorem inputsOfAnotherPhaseAreIgnored : Obligations.InputsOfAnotherPhaseAreIgnored :=
  fun _ s _ _ _ =>
    ⟨fun he => clockEdge_reset he s, fun hp => clockEdge_congr_of_ne_idle hp rfl rfl rfl,
      fun hp => clockEdge_congr_of_ne_resp hp rfl rfl rfl rfl⟩

/-- Settles O50: the step is an edge with the input sample consumed, which changes nothing that
`admitted` looks at. -/
theorem stepFromAnAdmittedStateAnswersAnAdmittedState :
    Obligations.StepFromAnAdmittedStateAnswersAnAdmittedState :=
  fun s hs => clockEdge_admitted (s := s.popEdge) s.nextEdge hs

end Sys2Proof.Machine

/-! RESET (spec/70_reset_and_hazards.md): the edge itself (R160), and that the operation in progress
is abandoned (R162), because nothing but an ACCEPT leads out of IDLE. -/

namespace Sys2Proof.Machine

/-- The RESET event of a step, with the input sample consumed. -/
theorem step_reset {s : State} (he : s.nextEdge.rst = true) :
    step s = .next s.popEdge.resetEvent := clockEdge_reset he s.popEdge

/-! ### A block in IDLE that accepts nothing (R162) -/

section
variable {s : State}

theorem outputs_idle (hp : s.phase = .idle) : s.outputs = FusedState.idle.outputs := by
  rw [outputs_eq_fused_outputs, fused_idle hp]

theorem delivering_idle (hp : s.phase = .idle) : s.delivering = [] := by
  simp [State.delivering, hp]

theorem accepting_idle_eq_nil_iff (hp : s.phase = .idle) :
    s.accepting = [] ↔ s.nextEdge.rst = true ∨ s.nextEdge.reqValid = false := by
  cases hr : s.nextEdge.rst <;> simp [State.accepting, hp, hr]

/-- Of R130's lines for IDLE only ACCEPT leaves it: RESET and the idle edge remain. -/
theorem step_idle_of_accepting_eq_nil (hp : s.phase = .idle) (hacc : s.accepting = []) :
    ∃ t, step s = .next t ∧ t.phase = .idle := by
  cases hr : s.nextEdge.rst with
  | true => exact ⟨_, step_reset hr, s.popEdge.resetEvent_phase⟩
  | false =>
    have hv : s.nextEdge.reqValid = false :=
      ((accepting_idle_eq_nil_iff hp).mp hacc).resolve_left (by simp [hr])
    exact ⟨s.popEdge, clockEdge_idle (s := s.popEdge) hr hp hv, hp⟩

theorem accepting_eq_nil_of_acceptances {n : Nat} (hacc : acceptances (n + 1) s = []) :
    s.accepting = [] := by
  rw [acceptances] at hacc
  exact (List.append_eq_nil_iff.mp hacc).1

/-- The block stays in IDLE over any run without an ACCEPT, further RESETs included. -/
theorem idle_run_of_acceptances_eq_nil (n : Nat) (hp : s.phase = .idle)
    (hacc : acceptances n s = []) :
    deliveries n s = [] ∧ ∀ o ∈ observe n s, o = FusedState.idle.outputs := by
  induction n generalizing s with
  | zero => simp [outputs_idle hp]
  | succ n ih =>
    have hnow : s.accepting = [] := accepting_eq_nil_of_acceptances hacc
    obtain ⟨t, hstep, ht⟩ := step_idle_of_accepting_eq_nil hp hnow
    rw [acceptances_succ hstep, hnow, List.nil_append] at hacc
    obtain ⟨hdel, hobs⟩ := ih ht hacc
    rw [deliveries_succ hstep, observe_succ hstep, delivering_idle hp, hdel]
    exact ⟨rfl, List.forall_mem_cons.mpr ⟨outputs_idle hp, hobs⟩⟩

end

/-! ### The statements of 70_reset_and_hazards.md -/

/-- Settles O57: the state after RESET is in IDLE, and the run from there accepts nothing. -/
theorem resetAbandonsTheOperation : Obligations.ResetAbandonsTheOperation := fun s n he =>
  ⟨_, step_reset he, idle_run_of_acceptances_eq_nil n s.popEdge.resetEvent_phase⟩

/-- Settles O41: what R160 fixes of the state after RESET, whatever the free values are. -/
theorem resetEdgeReturnsToIdle : Obligations.ResetEdgeReturnsToIdle := fun s he =>
  have hidle := s.popEdge.resetEvent_phase
  ⟨_, step_reset he, hidle, s.popEdge.resetEvent_ustep, s.popEdge.resetEvent_edges,
    State.reqReady_iff.mpr hidle, by simp [State.rspValid]⟩

end Sys2Proof.Machine

/-! The properties of spec/95_test_vectors.md section 5. For a fixed key the seed reaches the digest
of HashA through bijections only: the three blocks, the tail word, the length and FMIX32 are each
one in the accumulator. -/

namespace Sys2Proof.Machine

/-- The seed stands where the first block finds the accumulator, and each of R90's six stages is a
bijection in the accumulator it is given. -/
theorem hashA_bijective_seed (sa da : Word) (sp dp : Half) (pr : Byte) :
    Function.Bijective (fun seed => hashA hardware sa da sp dp pr seed) := by
  simp only [hashA_eq]
  have hports := absorb_bijective_accumulator (scr hardware (dp ++ sp : BitVec (16 + 16)))
  have hblocks := hports.comp <|
    (absorb_bijective_accumulator (scr hardware da)).comp <|
      absorb_bijective_accumulator (scr hardware sa)
  have htail := xor32_right_bijective (scr hardware (zext32 pr))
  have hlength := xor32_right_bijective keyLen
  exact fmix32_bijective.comp <| hlength.comp <| htail.comp hblocks

/-! ### The statements of 95_test_vectors.md -/

/-- Settles O22, with HashA a composition of bijections from the seed to the digest. -/
theorem hashAIsABijectionInTheSeed : Obligations.HashAIsABijectionInTheSeed :=
  hashA_bijective_seed

end Sys2Proof.Machine
